-- ==== Sys2Proof/Word.lean ====
section
/-! DEFINITION. The bytes, node numbers, port and slot numbers and 16-bit ring indices of the 4820, and their
plainest arithmetic. -/

namespace Sys2Proof

/-- One byte of the replica space (00_scope.md, Replica addresses). -/
abbrev Byte := BitVec 8

/-- A node number on the replica ring, 0 to 31 (R166: five straps). -/
abbrev Node := Fin 32

/-- A study port, 0 to 7 (R135). -/
abbrev PortId := Fin 8

/-- A live view slot, 0 to 7 (R74). -/
abbrev Slot := Fin 8

/-- A producer or consumer index: a 16-bit free-running counter (00_scope.md, Ring indices). -/
abbrev Index := BitVec 16

/-- The distance from `consumer` to `producer`, taken modulo 65,536 (00_scope.md, Ring indices). -/
def Index.distance (producer consumer : Index) : Nat := (producer - consumer).toNat

/-- A count that holds at `limit` once it reaches it (R10, R33, R48, R124). -/
def holdAt (limit n : Nat) : Nat := min n limit

end Sys2Proof
end

