-- ==== Sys2Proof/Config.lean ====
section
/-! DEFINITION. What the part fixes: capacities, ranges and the addresses of the replica space. The spec leaves no
implementation constant open, so no constant here is without a body. -/

namespace Sys2Proof.Config

/-- The replica space is 16 MiB (R153). -/
def replicaBytes : Nat := 16777216

/-- The largest study time, 2^40 − 1 µs (R1). -/
def maxTime : Nat := 1099511627775

/-- The largest uncertainty, 65,535 µs (R1). -/
def maxUncertainty : Nat := 65535

/-- The journal holds at most 4,194,304 entries (R47). -/
def journalCapacity : Nat := 4194304

/-- The merge window holds at most 1,024 records (R33). -/
def windowCapacity : Nat := 1024

/-- The late list holds at most 4,096 records (R48). -/
def lateCapacity : Nat := 4096

/-- A 32-bit count holds here (R10, R48). -/
def maxCount32 : Nat := 4294967295

/-- The arrival order count is 64 bits wide and holds here (R33). -/
def maxArrivalOrder : Nat := 18446744073709551615

/-- Device numbers run from 0 to 32,767 in every image (R4). -/
def imageDevices : Nat := 32768

/-- The Checkpoint Directory has 1,024 slots (R61). -/
def checkpointSlots : Nat := 1024

/-- Two reports farther apart than this are never folded (R38). -/
def foldLimit : Nat := 20000

/-- A forward or backward frame takes at most 256 entries (R89, R90). -/
def frameCapacity : Nat := 256

/-- A delta ring holds 4,096 records (R121). -/
def deltaEntries : Nat := 4096

/-- A command ring and a completion ring hold 256 entries each (R139). -/
def ringEntries : Nat := 256

/-- A readout area holds 2,048 entries of 32 bytes (R139). -/
def readoutEntries : Nat := 2048

/-- The staging area of a port region is 512,000 bytes (R139). -/
def stagingBytes : Nat := 512000

/-- Each notice queue holds up to 64 notices (R160). -/
def queueCapacity : Nat := 64

/-- A class whose ageing count is this or more is aged (R171). -/
def agedCount : Nat := 64

/-- The most entries one journal read request moves (R170). -/
def blockEntries : Nat := 64

/-- The most catalogue entries one catalogue write request moves (R174). -/
def catalogueBlock : Nat := 512

/-- The parked table has 64 entries (R97). -/
def parkedEntries : Nat := 64

/-- The largest slack (R41). -/
def maxSlack : Nat := 60000000

/-- The slack after the part's reset (R41). -/
def resetSlack : Nat := 1000000

/-- The quiet limit OPEN_VIEW sets (R75). -/
def openQuiet : Nat := 2000000

/-- The magnitude of elapsed nanoseconds above which alignment is not carried further (R25). -/
def maxElapsed : Nat := 1152921504606846976

/-! Addresses (R175, Replica space and Port region). -/

/-- The start of port `p`'s 1 MiB region. -/
def portBase (p : PortId) : Nat := 0x100000 * p.val
/-- Command ring entry `i` of port `p`. -/
def commandEntry (p : PortId) (i : Nat) : Nat := portBase p + 32 * i
/-- The command producer word of port `p`. -/
def producerAddr (p : PortId) : Nat := portBase p + 0x2000
/-- The completion consumer word of port `p`. -/
def consumerAddr (p : PortId) : Nat := portBase p + 0x2008
/-- The delta consumer word of port `p` for view slot `v`. -/
def deltaConsumerAddr (p : PortId) (v : Slot) : Nat := portBase p + 0x2010 + 8 * v.val
/-- The start of port `p`'s staging area. -/
def stagingBase (p : PortId) : Nat := portBase p + 0x3000
/-- The port status record of port `p`. -/
def portStatusAddr (p : PortId) : Nat := portBase p + 0x80000
/-- Completion record `i` of port `p`. -/
def completionEntry (p : PortId) (i : Nat) : Nat := portBase p + 0x81000 + 32 * i
/-- Readout entry `i` of port `p`. -/
def readoutEntry (p : PortId) (i : Nat) : Nat := portBase p + 0x90000 + 32 * i
/-- The part status page. -/
def partStatusAddr : Nat := 0x800000
/-- The view status record of slot `v`. -/
def viewStatusAddr (v : Slot) : Nat := 0x801000 + 0x40 * v.val
/-- Delta ring entry `i` of slot `v`. -/
def deltaEntry (v : Slot) (i : Nat) : Nat := 0x900000 + 0x20000 * v.val + 32 * i
/-- The published image area of slot `v`. -/
def imageAddr (v : Slot) : Nat := 0xA00000 + 0x8000 * v.val

end Sys2Proof.Config
end

