-- ==== Sys2Proof/Syntax.lean ====
section
/-! DEFINITION. The commands and events the part takes: one constructor of `Instr` per row of
spec/opcode_table.json, with the packets that arrive on the ring as their operands. -/

namespace Sys2Proof

/-- The six notice types of the ring (00_scope.md, Terms; R156). -/
inductive NoticeType where
  | attach | detach | kick | rearm | completion | attention
deriving DecidableEq, Repr

/-- A packet of the replica ring with its hop count (R155). -/
inductive Packet where
  /-- A ring write: sender, starting address, data bytes, hop count. -/
  | write (sender : Node) (addr : Nat) (data : List Byte) (hops : Nat)
  /-- A notice: sender, target, type, 32-bit datum, hop count. -/
  | notice (sender target : Node) (type : NoticeType) (datum : BitVec 32) (hops : Nat)
  /-- A sync packet: sender and hop count. -/
  | sync (sender : Node) (hops : Nat)
deriving DecidableEq, Repr

/-- Whose checkpoint load a CHECKPOINT_LOAD_END ends: a view's seek (R70) or the truncation rebuild (R58). -/
inductive Loader where
  | view (v : Slot)
  | rebuild
deriving DecidableEq, Repr

/-- One step of the part (spec/opcode_table.json). A station command that has been dispatched is named by its dispatch
number `n`: `format n` is the event "the command dispatched as number n, a FORMAT, is taken by its owning block". The
operands of that command are those of its descriptor, which the part holds (R142, R147). -/
inductive Instr where
  /-- RESET (R166): the strap levels sampled while reset is applied. -/
  | reset (nodeStraps : BitVec 5) (sizeStraps : BitVec 6)
  /-- SIGNAL_GAINED (R166). -/
  | signalGained
  /-- SYNC_TIMEOUT (R166). -/
  | syncTimeout
  /-- SIGNAL_LOSS (R167). -/
  | signalLoss
  /-- PACKET_ARRIVAL (R156): the packet that arrives on the upstream port. -/
  | packetArrival (p : Packet)
  /-- TRANSMIT_PACKET (R158). -/
  | transmitPacket
  /-- ATTACH (R135): the ATTACH queue's oldest notice is taken. -/
  | attach
  /-- DETACH (R137): the DETACH queue's oldest notice is taken. -/
  | detach
  /-- DETACH_END (R138) of port `p`. -/
  | detachEnd (p : PortId)
  /-- KICK (R141): the KICK queue's oldest notice is taken. -/
  | kick
  /-- REARM (R164): the REARM queue's oldest notice is taken. -/
  | rearm
  /-- FETCH (R141) by port `p`. -/
  | fetch (p : PortId)
  /-- DISPATCH (R146). -/
  | dispatch
  /-- FORMAT (R56). -/
  | format (n : Nat)
  /-- LOAD_CATALOGUE (R7). -/
  | loadCatalogue (n : Nat)
  /-- CATALOGUE_WRITE_END (R8). -/
  | catalogueWriteEnd
  /-- LOAD_BATCH (R52). -/
  | loadBatch (n : Nat)
  /-- ALIGN_RECORD (R20): the next raw record of the batch of LOAD_BATCH number `n`. -/
  | alignRecord (n : Nat)
  /-- LATE_APPEND_END (R48). -/
  | lateAppendEnd
  /-- COMMIT_WRITE_END (R44). -/
  | commitWriteEnd
  /-- CHECKPOINT_WRITE_START (R64). -/
  | checkpointWriteStart
  /-- CHECKPOINT_WRITE_END (R64). -/
  | checkpointWriteEnd
  /-- CHECKPOINT_LOAD_END (R70). -/
  | checkpointLoadEnd (l : Loader)
  /-- FLUSH (R54). -/
  | flush (n : Nat)
  /-- SEAL (R55). -/
  | seal (n : Nat)
  /-- TRUNCATE (R57). -/
  | truncate (n : Nat)
  /-- TRUNCATE_REBUILD_END (R58). -/
  | truncateRebuildEnd
  /-- READ_LATE (R49). -/
  | readLate (n : Nat)
  /-- READ_ENTRIES (R151). -/
  | readEntries (n : Nat)
  /-- READOUT_COPY_END (R150) of port `p`'s readout. -/
  | readoutCopyEnd (p : PortId)
  /-- QUERY_SOURCE (R152). -/
  | querySource (n : Nat)
  /-- DEFINE_SOURCE (R13). -/
  | defineSource (n : Nat)
  /-- CLAIM_SOURCE (R15). -/
  | claimSource (n : Nat)
  /-- RELEASE_SOURCE (R16). -/
  | releaseSource (n : Nat)
  /-- END_SOURCE (R17). -/
  | endSource (n : Nat)
  /-- ANCHOR_SOURCE (R18). -/
  | anchorSource (n : Nat)
  /-- OPEN_VIEW (R84). -/
  | openView (n : Nat)
  /-- SEEK (R85). -/
  | seek (n : Nat)
  /-- SEEK_END (R87) of slot `v`. -/
  | seekEnd (v : Slot)
  /-- RETURN (R96). -/
  | returnMark (n : Nat)
  /-- MARK (R95). -/
  | mark (n : Nat)
  /-- PARK (R98). -/
  | park (n : Nat)
  /-- RESUME (R99). -/
  | resume (n : Nat)
  /-- EXCHANGE (R100). -/
  | exchange (n : Nat)
  /-- CLOSE_VIEW (R101). -/
  | closeView (n : Nat)
  /-- RUN (R112). -/
  | run (n : Nat)
  /-- HOLD (R113). -/
  | hold (n : Nat)
  /-- STEP (R114). -/
  | step (n : Nat)
  /-- SET_PACE (R106). -/
  | setPace (n : Nat)
  /-- SET_STOPS (R115). -/
  | setStops (n : Nat)
  /-- SET_FILTER (R126). -/
  | setFilter (n : Nat)
  /-- PUBLISH (R132). -/
  | publish (n : Nat)
  /-- CLEAR_CAUSES (R165). -/
  | clearCauses (n : Nat)
  /-- FRAME_READ_END (R92) of slot `v`. -/
  | frameReadEnd (v : Slot)
  /-- TIMER_SEGMENT_RELOAD (R110) of slot `v`'s pacing timer. -/
  | timerSegmentReload (v : Slot)
  /-- PACING_TIMER_EXPIRY (R110) of slot `v`'s pacing timer. -/
  | pacingTimerExpiry (v : Slot)
  /-- DRAM_GRANT (R171). -/
  | dramGrant
  /-- PARKED_CONTEXT_COPY_END (R170). -/
  | parkedContextCopyEnd
deriving DecidableEq, Repr

end Sys2Proof
end

