-- ==== Sys2Proof/Decode.lean ====
section
/-! DEFINITION. The command a table word spells. No row of spec/opcode_table.json gives bits (every row's `fields` is
empty): the part takes commands by events, packets and descriptors, never by such a word (DESIGN CHOICE, log entry 6). -/

namespace Sys2Proof

/-- The command spelled by an `nbits`-bit word of the table: none, since no row of the table gives bits. -/
def decodeTableWord (_nbits _w : Nat) : Option Instr := none

end Sys2Proof
end

