-- ==== Sys2Proof/Machine/State.lean ====
section
/-! DEFINITION. The state of the 4820 as plain data, block by block, and its value after reset. Tables of 256 sources,
1,024 checkpoint slots and 64 parked entries, the images, the catalogue and the replica are sparse lists of
(number, value) pairs in one canonical form: numbers strictly rising and no pair equal to what an unlisted number
reads as. -/

namespace Sys2Proof.Machine

/-- The part names no event after which it stops: a ring write it cannot apply is discarded (R157), a command it cannot
take completes with a result code (R149). No fault is ever raised (safe). -/
inductive Fault where
deriving DecidableEq, Repr

/-- Why a command has no meaning. -/
inductive Refusal where
  /-- Raised by `exec` for a row of the table that has no meaning yet. No arm raises it now (safe). -/
  | notModelled (mnemonic : String)
deriving DecidableEq, Repr

/-! ### Devices, times and keys -/

/-- A switching state (R3). -/
inductive SwitchState where
  | opened | closed | travel | faulty | unknown
deriving DecidableEq, Repr

/-- A device kind (R3). -/
inductive DeviceKind where
  | breaker | disconnector | earthSwitch | loadSwitch
deriving DecidableEq, Repr

/-- The origin of a report (R23, R175). -/
inductive Origin where
  | protection | operator | autoReclose | automation
deriving DecidableEq, Repr

/-- An ordering key (R2). -/
structure Key where
  time : Nat
  unc : Nat
  src : Nat
  seq : Nat
deriving DecidableEq, Repr

/-- One image byte: a state code and an ambiguity mark (R63, R83). -/
structure ImageByte where
  state : SwitchState
  mark : Bool
deriving DecidableEq, Repr

/-- What an unlisted device of an image holds: UNKNOWN with the mark clear (R4, R6). -/
def ImageByte.unlisted : ImageByte := ⟨.unknown, false⟩

/-- An image: one byte per device number 0 to 32,767 (R4), the devices that differ from `ImageByte.unlisted` listed. -/
abbrev Image := List (Nat × ImageByte)

/-- A catalogue entry (R4). -/
structure CatalogueEntry where
  station : Nat
  kind : DeviceKind
  initial : SwitchState
deriving DecidableEq, Repr

/-- The catalogue entry FORMAT writes for every device (R6). -/
def CatalogueEntry.unlisted : CatalogueEntry := ⟨0, .breaker, .unknown⟩

/-- A device's last committed change (R5). -/
structure LastChange where
  time : Nat
  unc : Nat
  pos : Nat
deriving DecidableEq, Repr

/-- The flags the alignment of a report raises (R31). -/
structure AlignFlags where
  gap : Bool := false
  seqBack : Bool := false
  clamped : Bool := false
  codeFixed : Bool := false
deriving DecidableEq, Repr

/-! ### Sources -/

/-- The source states (R11). -/
inductive SourceState where
  | undefined | defined | streaming | ended
deriving DecidableEq, Repr

/-- A source's seven alignment parameters (R9). -/
structure AlignParams where
  tickNs : Nat := 1
  anchorRaw : Nat := 0
  anchorTime : Nat := 0
  driftPpb : Int := 0
  offsetUs : Int := 0
  baseUnc : Nat := 0
  driftUncPpb : Nat := 0
deriving DecidableEq, Repr

/-- A source's seven counters (R10). -/
structure SourceCounters where
  loaded : Nat := 0
  rejected : Nat := 0
  folded : Nat := 0
  late : Nat := 0
  lateDropped : Nat := 0
  missing : Nat := 0
  forced : Nat := 0
deriving DecidableEq, Repr

/-- A source record (R9), with its reset values. -/
structure Source where
  state : SourceState := .undefined
  owner : Option PortId := none
  params : AlignParams := {}
  nextSeq : Nat := 0
  maxTime : Option Nat := none
  counters : SourceCounters := {}
deriving DecidableEq, Repr

/-- A batch in flight in the Alignment Unit (R19, R53): the dispatch number of its LOAD_BATCH, its port, its source,
the replica address of its first record, its record count, and what it has counted so far. -/
structure Batch where
  serial : Nat
  port : PortId
  source : Nat
  addr : Nat
  count : Nat
  clamped : Bool
  taken : Nat
  rejected : Nat
  late : Nat
  /-- The Merge Unit has not yet taken the batch's latest arrival. -/
  handed : Bool
deriving DecidableEq, Repr

/-! ### The Merge Unit and the journal -/

/-- A witness of a window record with its own data (R33). -/
structure Witness where
  src : Nat
  seq : Nat
  time : Nat
  unc : Nat
  flags : AlignFlags
  origin : Option Origin
  order : Nat
deriving DecidableEq, Repr

/-- A window record (R33, R34): its witnesses are best first. -/
structure WindowRecord where
  device : Nat
  state : SwitchState
  ambiguous : Bool
  forced : Bool
  first : Witness
  others : List Witness
deriving DecidableEq, Repr

/-- An arrival at the Merge Unit (R31): the aligned record, and the batch it came from. -/
structure Arrival where
  batch : Nat
  device : Nat
  state : SwitchState
  witness : Witness
deriving DecidableEq, Repr

/-- A journal entry (R43). -/
structure Entry where
  time : Nat
  unc : Nat
  device : Nat
  newState : SwitchState
  priorState : SwitchState
  priorMark : Bool
  isRepeat : Bool
  ambiguous : Bool
  forced : Bool
  flags : AlignFlags
  origin : Option Origin
  witnesses : List (Nat × Nat)
deriving DecidableEq, Repr

/-- A late record (R48). -/
structure LateRecord where
  time : Nat
  unc : Nat
  device : Nat
  state : SwitchState
  origin : Option Origin
  src : Nat
  seq : Nat
  flags : AlignFlags
  settled : Key
deriving DecidableEq, Repr

/-- The settled horizon (R41): unbounded, or a time that may lie before study time 0. -/
inductive Horizon where
  | unbounded
  | upTo (h : Int)
deriving DecidableEq, Repr

/-- What the arrival the Merge Unit is taking waits for (R40, R48, R170). -/
inductive ArrivalPath where
  | idle
  /-- The forced commit of R46 is being written. -/
  | forcing (a : Arrival)
  /-- Its late-list append is being written. -/
  | appending (a : Arrival)
deriving DecidableEq, Repr

/-- A FLUSH in progress (R54): its dispatch number, the key it noted, and the commits counted since its start. -/
structure FlushOp where
  serial : Nat
  noted : Key
  committed : Nat
deriving DecidableEq, Repr

/-- The Merge Unit (R33 to R49). -/
structure Merge where
  window : List WindowRecord
  arrivalOrder : Nat
  settled : Option Key
  /-- The commit image: current committed states with their marks (R5, R63). -/
  image : Image
  /-- The last committed changes (R5). -/
  lastChange : List (Nat × Option LastChange)
  /-- The entry whose write is in flight (R43). -/
  writing : Option Entry
  /-- The commit run in progress, with the horizon it was started with (R42). -/
  run : Option Horizon
  path : ArrivalPath
  /-- Arrivals handed over and not yet taken (R19, R31). -/
  handed : List Arrival
  /-- Arrivals waiting at step 4 behind a checkpoint write (R45). -/
  waiting : List Arrival
  /-- Waiting arrivals that a checkpoint write's end has released and that are still to be resumed, in order (R45). -/
  resuming : List Arrival
  /-- A resumed arrival's forced commit has made another checkpoint due, and the rest wait for the end of its write (R45). -/
  paused : Bool
  flushes : List FlushOp
  late : List LateRecord
  lateDropped : Nat
deriving DecidableEq, Repr

/-- The journal states (R50). -/
inductive JournalState where
  | unformatted | building | sealed | rebuilding
deriving DecidableEq, Repr

/-- A LOAD_CATALOGUE in progress (R7, R8). -/
structure CatalogueLoad where
  addr : Nat
  count : Nat
  taken : Nat
  written : Nat
  skipped : Nat
  repaired : Nat
deriving DecidableEq, Repr

/-- How far a started reserving command has come (R51). -/
inductive ReservedWork where
  /-- FORMAT: the journal is REBUILDING, and the changes of R56 wait for the entry whose write is in flight; the clamped
  operands. -/
  | formatCommit (count interval slack : Nat)
  /-- FORMAT: its catalogue is being written (R6, R56); `interval` is its clamped operand. -/
  | formatCatalogue (interval : Nat)
  /-- FORMAT: the directory waits for a checkpoint write in flight (R72). -/
  | formatDirectory (interval : Nat)
  /-- FORMAT: checkpoint 0 is being written (R72). -/
  | formatCheckpoint
  /-- LOAD_CATALOGUE: entries are being taken and written (R7). -/
  | catalogueLoad (c : CatalogueLoad)
  /-- LOAD_CATALOGUE: checkpoint 0 is being rewritten (R8). -/
  | catalogueCheckpoint (c : CatalogueLoad)
  /-- SEAL: its first step is committing (R55). -/
  | sealing (committed : Nat)
  /-- TRUNCATE: step 1 is made, and step 2 waits for the entry whose write is in flight (R57); `stopped` names the views
  that step 1 stopped (R103). -/
  | truncateCommit (time : Nat) (stopped : List Slot)
  /-- TRUNCATE: the directory's step waits for a checkpoint write in flight (R71). -/
  | truncateDirectory (removed discarded : Nat)
  /-- TRUNCATE: the rebuild reads its checkpoint, in slot `slot` at position `base` (R58). -/
  | rebuildLoading (removed discarded slot base : Nat)
  /-- TRUNCATE: the rebuild rolls from the image it has read (R58). -/
  | rebuildRolling (removed discarded base : Nat) (loaded : Image)
  /-- TRUNCATE: the seeks of the truncated views are in flight (R104). -/
  | truncateSeeks (removed discarded : Nat)
deriving DecidableEq, Repr

/-- The reserving command that has started: its dispatch number and whether an operand was clamped. -/
structure Reserved where
  serial : Nat
  clamped : Bool
  work : ReservedWork
deriving DecidableEq, Repr

/-- The Journal Store's own state (R50). -/
structure Journal where
  state : JournalState
  committed : Nat
  slack : Nat
  deviceCount : Nat
  reserved : Option Reserved
deriving DecidableEq, Repr

/-! ### The Checkpoint Directory -/

/-- The slot states (R61). -/
inductive SlotState where
  | free | writing | inUse
deriving DecidableEq, Repr

/-- A checkpoint slot (R61); its image lies in the stacked DRAM. R61 gives the position of a WRITING and of an IN_USE slot.
The position of a FREE slot is 0 here, at reset and once it is freed (DESIGN CHOICE, log entry 21). -/
structure CheckpointSlot where
  state : SlotState := .free
  pos : Nat := 0
  pins : Nat := 0
deriving DecidableEq, Repr

/-- A checkpoint write in flight (R64, R68): its slot, the position written, and whether it rewrites checkpoint 0. -/
structure CheckpointWrite where
  slot : Nat
  pos : Nat
  rewrites : Bool
deriving DecidableEq, Repr

/-- The Checkpoint Directory (R61). -/
structure Directory where
  slots : List (Nat × CheckpointSlot)
  interval : Nat
  write : Option CheckpointWrite
  /-- A checkpoint due and not yet being written (R44, R65). -/
  due : Option Nat
deriving DecidableEq, Repr

/-! ### The View Engine -/

/-- The directions a view moves in (R75). -/
inductive Direction where
  | forward | backward
deriving DecidableEq, Repr

/-- The pace modes (R106). -/
inductive PaceMode where
  | paced | flat
deriving DecidableEq, Repr

/-- The stop causes (R118). -/
inductive StopCause where
  | none | holdCmd | stepDone | breakTime | watch | ambiguous | windowEnd | journalEnd | truncated | ringDown
deriving DecidableEq, Repr

/-- The states of a view slot (R74, R81). -/
inductive ViewState where
  | free | seeking | held | running | stalled
deriving DecidableEq, Repr

/-- A view's context (R75): what PARK saves. The state field of R75 stands in `View`. -/
structure ViewContext where
  owner : PortId := 0
  windowStart : Nat := 0
  /-- `none` is OPEN_END. -/
  windowEnd : Option Nat := Option.none
  cursor : Nat := 0
  cursorTime : Nat := 0
  direction : Direction := .forward
  mode : PaceMode := .paced
  speed : Int := 0
  quiet : Nat := Config.openQuiet
  width : Nat := 0
  counter : BitVec 32 := 0
  breakTime : Option Nat := Option.none
  watch : List Nat := []
  stopAmbiguous : Bool := false
  ranges : List (Nat × Nat) := []
  kinds : BitVec 4 := 15
  published : Bool := false
  /-- Newest first (R95). -/
  marks : List Nat := []
  budget : Nat := 0
  lastStop : StopCause := .none
  /-- The device of the last WATCH stop (R133). -/
  watchDevice : Nat := 0
deriving DecidableEq, Repr

/-- The request classes (R170). -/
inductive RequestClass where
  | a | b | c | d
deriving DecidableEq, Repr

/-- How far a formed frame has come (R92, R94, R110, R128). A frame being delayed knows whether SET_STOPS has changed the
break time since its delay began (R116). -/
inductive FramePhase where
  | reading | atEdge | delaying (breakChanged : Bool) | stalled
deriving DecidableEq, Repr

/-- A frame formed and not yet applied (R89, R90, R92). It starts at the view's cursor. -/
structure Frame where
  /-- How many entries it holds, once its reading has ended. -/
  count : Nat
  /-- How many read requests have ended. -/
  blocks : Nat
  /-- The class of its requests, fixed when its formation begins (R170). -/
  cls : RequestClass
  /-- The time its gap is measured from, when it has a gap (R107). -/
  gapFrom : Option Nat
  phase : FramePhase
deriving DecidableEq, Repr

/-- How a seek completes its command (R84, R87, R99). -/
inductive SeekKind where
  | openView | seek | resume | exchange | truncation
deriving DecidableEq, Repr

/-- How far a seek has come (R86, R99, R104). -/
inductive SeekPhase where
  /-- The route is chosen, by way of checkpoint slot `base` or by a roll where there is none, and the parked-context copy
  is in flight (R86, R99, R100). -/
  | routed (base : Option Nat)
  /-- A truncated view's seek waits for the rebuild (R104). -/
  | awaitingRebuild
  /-- The checkpoint in slot `slot` is being read (R86). -/
  | loading (slot : Nat)
  /-- Entries are being applied, or none remains to be. -/
  | rolling
deriving DecidableEq, Repr

/-- A seek in flight (R85 to R88). -/
structure SeekOp where
  /-- The dispatch number of its command, unless a truncation started it (R104). -/
  serial : Option Nat
  kind : SeekKind
  target : Nat
  clamped : Bool
  newWidth : Option Nat
  /-- The cursor the view counts as positioned at (R86, R100, R104). -/
  positioned : Option Nat
  phase : SeekPhase
  /-- Whether it loads a checkpoint (R86): the route of the completion. -/
  loads : Bool
  /-- The position its roll starts from (R86). -/
  start : Nat
deriving DecidableEq, Repr

/-- A STEP in flight (R114). -/
structure StepOp where
  serial : Nat
  applied : Nat
  clamped : Bool
deriving DecidableEq, Repr

/-- A pacing timer that counts (R109, R110): its tap in µs, the pulses still to come, the reload segments left. -/
structure Countdown where
  tap : Nat
  count : Nat
  segments : Nat
deriving DecidableEq, Repr

/-- A view slot (R74, R75, R81): the context and what the View Engine and the Pacing Timebase hold beside it. -/
structure View where
  state : ViewState := .free
  ctx : ViewContext := {}
  atEdge : Bool := false
  frame : Option Frame := none
  /-- The time of the previous frame's last entry, from which the next gap is measured (R107). -/
  lastFrameTime : Option Nat := none
  /-- The next frame formed has no gap (R107). -/
  noGap : Bool := true
  /-- The break arming (R116): `none` is clear, that is, not decided since it was cleared. -/
  armed : Option Bool := none
  seek : Option SeekOp := none
  step : Option StepOp := none
  /-- The delta producer index (R121). -/
  producer : Index := 0
  /-- The lost-mark count (R124). -/
  lostMarks : Nat := 0
  /-- The pacing timer: `none` is IDLE (R109). -/
  timer : Option Countdown := none
deriving DecidableEq, Repr

/-- A parked-context copy waiting for its DRAM request (R98 to R100, R170). -/
inductive CopyJob where
  /-- PARK of dispatch number `serial`: the context of the view in `slot` into entry `parkedId`. -/
  | park (serial : Nat) (slot : Slot) (parkedId : Nat)
  /-- RESUME or EXCHANGE into `slot`. -/
  | restore (slot : Slot)
deriving DecidableEq, Repr

/-! ### Ports -/

/-- A command descriptor: 32 bytes (R139, R175). -/
structure Descriptor where
  bytes : List Byte
deriving DecidableEq, Repr

/-- A dispatched command: its dispatch number, its descriptor, and whether its owning block has started it. -/
structure InFlight where
  serial : Nat
  descriptor : Descriptor
  started : Bool
deriving DecidableEq, Repr

/-- A port context (R138). -/
structure Port where
  bound : Option Node := none
  detaching : Bool := false
  weight : Nat := 1
  depth : Nat := 1
  pendingDepth : Option Nat := none
  look : Bool := false
  halted : Bool := false
  /-- The producer value that last halted the port (R139, R141). -/
  haltValue : Index := 0
  head : Index := 0
  buffer : List Descriptor := []
  inFlight : List InFlight := []
  /-- The completion producer index (R144). -/
  produced : Index := 0
  /-- The gate is FIRED (R163). -/
  fired : Bool := false
  /-- The cause set, laid out as R175 gives it. -/
  causes : Byte := 0
deriving DecidableEq, Repr

/-- The dispatcher (R146): the turn and the dispatches made in it. `nextSerial` numbers dispatches in order, which R51
needs to start reserving commands in the order in which they were dispatched (DESIGN CHOICE, log entry 7). -/
structure Dispatcher where
  turn : PortId
  count : Nat
  nextSerial : Nat
deriving DecidableEq, Repr

/-- A readout command whose copy is in progress (R49, R150, R151). -/
structure Readout where
  serial : Nat
  /-- READ_LATE rather than READ_ENTRIES. -/
  isLate : Bool
  /-- The first position copied (READ_ENTRIES). -/
  start : Nat
  count : Nat
  copied : Nat
  remove : Bool
  clamped : Bool
deriving DecidableEq, Repr

/-! ### Journal memory -/

/-- Who presents a request on the channel (R170). -/
inductive Requester where
  | view (v : Slot)
  | rebuild
  | commitWriter
  | checkpointWriter
  | readout (p : PortId)
  | catalogueWriter
  | lateWriter
  | contextCopier
deriving DecidableEq, Repr

/-- What a request moves (R170, R174). -/
inductive RequestKind where
  | frameRead | frameWrite | seekLoad | seekRoll | carry
  | rebuildLoad | rebuildRoll | commitWrite | checkpointWrite
  | readout | catalogueWrite | lateAppend | contextCopy
  /-- A frame read whose frame was discarded while it held the channel (R173). -/
  | discarded
deriving DecidableEq, Repr

/-- One request (R170). `last` says that its end is the end of its operation's series, which a row of the table names. -/
structure Request where
  who : Requester
  cls : RequestClass
  kind : RequestKind
  last : Bool
deriving DecidableEq, Repr

/-- The Journal Memory Arbiter (R170 to R173). -/
structure Arbiter where
  /-- The requests presented and not yet granted, in the order they were presented. -/
  waiting : List Request
  /-- The requests their requesters have still to present, in order. -/
  backlog : List Request
  /-- The granted request, until its transfer ends. -/
  channel : Option Request
  ageA : Nat
  ageB : Nat
  ageC : Nat
  ageD : Nat
  /-- The view slot granted last in class A. -/
  turnA : Nat
  /-- The requester granted last in class B: a view slot, or 8 for the rebuild reader. -/
  turnB : Nat
deriving DecidableEq, Repr

/-- The stacked DRAM regions that hold whole images and entries (R169). The late list, the parked table and the
catalogue, which lie there too, stand as fields of their owners. -/
structure Dram where
  /-- The journal region: entries 0, 1, 2, … as last written. -/
  journal : List Entry
  /-- The checkpoint slot images. -/
  slotImages : List (Nat × Image)
  /-- The live view images. -/
  viewImages : Vector Image 8
deriving DecidableEq, Repr

/-! ### The Ring Interface -/

/-- A queued notice (R160). -/
structure QueuedNotice where
  sender : Node
  datum : BitVec 32
deriving DecidableEq, Repr

/-- The Ring Interface (R153 to R168). The page ownership map follows from the port bindings (R154), so it is computed
from them (`Sys2Proof.Machine.pageOwner`). -/
structure Ring where
  up : Bool
  /-- The sampled node-number straps (R166). -/
  node : Node
  /-- The ring size found from the sampled straps (R166). -/
  size : Nat
  /-- The upstream port receives signal (R166). -/
  signal : Bool
  /-- A sync packet has been sent and has not returned (R166). -/
  syncWaiting : Bool
  /-- The local replica (R153). -/
  replica : List Host.Cell
  /-- The part's own packets held for sending, in hand-over order (R158). -/
  own : List Packet
  /-- The packets waiting to be forwarded, in arrival order (R156). -/
  forward : List Packet
  /-- The transmitter's latest packet was one of the part's own (R158). -/
  lastOwn : Bool
  /-- The packet the transmitter sent last (R158). -/
  sent : Option Packet
  attachQueue : List QueuedNotice
  detachQueue : List QueuedNotice
  kickQueue : List QueuedNotice
  rearmQueue : List QueuedNotice
  /-- The notice-loss flags (R161): bit 0 ATTACH, 1 DETACH, 2 KICK, 3 REARM. -/
  lossFlags : BitVec 4
  /-- The last refused node (R135). -/
  lastRefused : Option Node
deriving DecidableEq, Repr

/-! ### The whole part -/

/-- The state of the part, and the queue of commands that wait. -/
structure State where
  pending : List Instr
  ring : Ring
  ports : Vector Port 8
  dispatcher : Dispatcher
  readouts : Vector (Option Readout) 8
  /-- The source table (R9). -/
  sources : List (Nat × Source)
  batches : List Batch
  merge : Merge
  journal : Journal
  /-- The device catalogue (R4). -/
  catalogue : List (Nat × CatalogueEntry)
  directory : Directory
  views : Vector View 8
  /-- The parked table (R97). -/
  parked : List (Nat × Option ViewContext)
  copies : List CopyJob
  arbiter : Arbiter
  /-- The Pacing Timebase's counter in µs (R109). -/
  timebase : Nat
  dram : Dram
deriving DecidableEq, Repr

/-- The Ring Interface right after reset (R153, R160, R166), strapped as node 0 of a ring of 2
(DESIGN CHOICE, log entry 4). -/
def Ring.reset : Ring :=
  { up := false, node := 0, size := 2, signal := false, syncWaiting := false, replica := [], own := [], forward := [],
    lastOwn := false, sent := none, attachQueue := [], detachQueue := [], kickQueue := [], rearmQueue := [],
    lossFlags := 0, lastRefused := none }

/-- The Merge Unit right after reset (R33, R48, R50). -/
def Merge.reset : Merge :=
  { window := [], arrivalOrder := 0, settled := none, image := [], lastChange := [], writing := none, run := none,
    path := .idle, handed := [], waiting := [], resuming := [], paused := false, flushes := [], late := [], lateDropped := 0 }

/-- The Journal Store right after reset (R6, R50). -/
def Journal.reset : Journal :=
  { state := .unformatted, committed := 0, slack := Config.resetSlack, deviceCount := 0, reserved := none }

/-- The Checkpoint Directory right after reset (R61). -/
def Directory.reset : Directory := { slots := [], interval := 1024, write := none, due := none }

/-- The arbiter right after reset (R171, R172): slot 0 is the first considered in classes A and B. -/
def Arbiter.reset : Arbiter :=
  { waiting := [], backlog := [], channel := none, ageA := 0, ageB := 0, ageC := 0, ageD := 0, turnA := 7, turnB := 8 }

/-- The stacked DRAM when power is first applied (DESIGN CHOICE, log entry 5). Reset does not clear it (R169). -/
def Dram.powerOn : Dram := { journal := [], slotImages := [], viewImages := Vector.replicate 8 [] }

/-- The part right after reset. -/
def State.reset : State :=
  { pending := []
    ring := Ring.reset
    ports := Vector.replicate 8 {}
    dispatcher := { turn := 0, count := 0, nextSerial := 0 }
    readouts := Vector.replicate 8 none
    sources := []
    batches := []
    merge := Merge.reset
    journal := Journal.reset
    catalogue := []
    directory := Directory.reset
    views := Vector.replicate 8 {}
    parked := []
    copies := []
    arbiter := Arbiter.reset
    timebase := 0
    dram := Dram.powerOn }

end Sys2Proof.Machine
end

