-- ==== Sys2Proof/Machine/Sparse.lean ====
section
/-! DEFINITION. Sparse tables: lists of (number, value) pairs with numbers strictly rising and no pair equal to what an
unlisted number reads as. The replica, the images, the catalogue, the source table, the checkpoint slots and the parked
table are held in this form, so that equal tables are equal data. -/

namespace Sys2Proof.Machine

/-- What number `k` reads as, `d` being what an unlisted number reads as. -/
def Sparse.get {α : Type} (d : α) (m : List (Nat × α)) (k : Nat) : α := (m.lookup k).getD d

/-- The pairs of the values `vs` standing from number `a` on, without those that read as `d`. -/
def Sparse.cells {α : Type} [DecidableEq α] (d : α) (a : Nat) : List α → List (Nat × α)
  | [] => []
  | v :: vs => if v = d then Sparse.cells d (a + 1) vs else (a, v) :: Sparse.cells d (a + 1) vs

/-- `m` with the values `vs` written from number `a` on. -/
def Sparse.setRange {α : Type} [DecidableEq α] (d : α) (m : List (Nat × α)) (a : Nat) (vs : List α) : List (Nat × α) :=
  m.filter (fun c => decide (c.1 < a)) ++ Sparse.cells d a vs ++ m.filter (fun c => decide (a + vs.length ≤ c.1))

/-- `m` with the value `v` written at number `k`. -/
def Sparse.set {α : Type} [DecidableEq α] (d : α) (m : List (Nat × α)) (k : Nat) (v : α) : List (Nat × α) :=
  Sparse.setRange d m k [v]

/-- The `n` values that stand from number `a` on. -/
def Sparse.read {α : Type} (d : α) (m : List (Nat × α)) (a : Nat) : Nat → List α
  | 0 => []
  | n + 1 => Sparse.get d m a :: Sparse.read d m (a + 1) n

/-- The canonical form: numbers strictly rising, and no pair equal to what an unlisted number reads as. -/
def Sparse.wf {α : Type} [DecidableEq α] (d : α) : List (Nat × α) → Bool
  | [] => true
  | [c] => decide (c.2 ≠ d)
  | c :: c' :: m => decide (c.1 < c'.1 ∧ c.2 ≠ d) && Sparse.wf d (c' :: m)

/-- Every byte of the local replica is 0 after reset (R153), so an unlisted address reads as 0. -/
def unlistedByte : Byte := 0

/-- The canonical form of the local replica. -/
def Memory.wf (m : List Host.Cell) : Bool := Sparse.wf unlistedByte m

end Sys2Proof.Machine
end

