-- ==== Sys2Proof/Machine/Flags.lean ====
section
/-! DEFINITION. Codes, flag bytes and sets of the spec: little-endian fields, state, kind, origin, cause and result
codes, the flag byte, the image byte, clamp sets and the quality class (R3, R23, R29, R149, R162, R175). -/

namespace Sys2Proof.Machine

/-! ### Little-endian fields (00_scope.md, Byte order) -/

/-- The number a little-endian field holds. -/
def leNat : List Byte → Nat
  | [] => 0
  | b :: bs => b.toNat + 256 * leNat bs

/-- The `len` bytes of a little-endian field that holds `n`. -/
def leBytes : Nat → Nat → List Byte
  | 0, _ => []
  | len + 1, n => BitVec.ofNat 8 n :: leBytes len (n / 256)

/-- `len` zero bytes. -/
def zeros (len : Nat) : List Byte := List.replicate len 0

/-- One byte. -/
def byte (n : Nat) : Byte := BitVec.ofNat 8 n

/-- The signed number a field of `bits` bits holds. -/
def signedOf (bits n : Nat) : Int := if n < 2 ^ (bits - 1) then (n : Int) else (n : Int) - (2 ^ bits : Nat)

/-- The field of `bits` bits that holds the signed number `x`. -/
def unsignedOf (bits : Nat) (x : Int) : Nat := (x % ((2 ^ bits : Nat) : Int)).toNat

/-- A Boolean as a bit. -/
def bit (b : Bool) : Nat := if b then 1 else 0

/-! ### State, kind and origin codes -/

/-- The state codes (R3). -/
def SwitchState.code : SwitchState → Nat
  | .opened => 0
  | .closed => 1
  | .travel => 2
  | .faulty => 3
  | .unknown => 4

/-- The state of a code, none above 4 (R3). -/
def SwitchState.ofCode : Nat → Option SwitchState
  | 0 => some .opened
  | 1 => some .closed
  | 2 => some .travel
  | 3 => some .faulty
  | 4 => some .unknown
  | _ => none

/-- The kind codes (R3). -/
def DeviceKind.code : DeviceKind → Nat
  | .breaker => 0
  | .disconnector => 1
  | .earthSwitch => 2
  | .loadSwitch => 3

/-- The kind of a code, none above 3 (R3, R7). -/
def DeviceKind.ofCode : Nat → Option DeviceKind
  | 0 => some .breaker
  | 1 => some .disconnector
  | 2 => some .earthSwitch
  | 3 => some .loadSwitch
  | _ => none

/-- The origin codes (R175). -/
def Origin.code : Origin → Nat
  | .protection => 0
  | .operator => 1
  | .autoReclose => 2
  | .automation => 3

/-- The origin of a raw record's code: codes 4 to 255 are an absent origin (R23). -/
def Origin.ofCode : Nat → Option Origin
  | 0 => some .protection
  | 1 => some .operator
  | 2 => some .autoReclose
  | 3 => some .automation
  | _ => none

/-- The origin code of a record, `absent` when it has none (R175: 7 in an entry, 255 in a delta record). -/
def originCode (absent : Nat) : Option Origin → Nat
  | some o => o.code
  | none => absent

/-- The source state codes (R175). -/
def SourceState.code : SourceState → Nat
  | .undefined => 0
  | .defined => 1
  | .streaming => 2
  | .ended => 3

/-- The journal state codes (R175). -/
def JournalState.code : JournalState → Nat
  | .unformatted => 0
  | .building => 1
  | .sealed => 2
  | .rebuilding => 3

/-- The view state codes (R175). -/
def ViewState.code : ViewState → Nat
  | .free => 0
  | .seeking => 1
  | .held => 2
  | .running => 3
  | .stalled => 4

/-- The stop cause codes (R175). -/
def StopCause.code : StopCause → Nat
  | .none => 0
  | .holdCmd => 1
  | .stepDone => 2
  | .breakTime => 3
  | .watch => 4
  | .ambiguous => 5
  | .windowEnd => 6
  | .journalEnd => 7
  | .truncated => 8
  | .ringDown => 9

/-- 1 for BACKWARD (R175). -/
def Direction.code : Direction → Nat
  | .forward => 0
  | .backward => 1

/-! ### Result codes and causes -/

/-- The result codes (R149). -/
inductive Result where
  | ok | clamped | empty | notOwner | noSlot | badState | sourceOwned | viewsOpen | journalFull | unknownCommand | badTarget
deriving DecidableEq, Repr

/-- The result codes' numbers (R175). -/
def Result.code : Result → Nat
  | .ok => 0
  | .clamped => 1
  | .empty => 2
  | .notOwner => 3
  | .noSlot => 4
  | .badState => 5
  | .sourceOwned => 6
  | .viewsOpen => 7
  | .journalFull => 8
  | .unknownCommand => 9
  | .badTarget => 10

/-- CLAMPED when something was clamped, OK otherwise (R149). -/
def okOr (clamped : Bool) : Result := if clamped then .clamped else .ok

/-- The seven causes (R162). -/
inductive Cause where
  | viewStopped | lateRecords | badWrite | ringRestored | truncated | noticeLost | ringIndex
deriving DecidableEq, Repr

/-- A cause as a set of one, laid out as R175 gives it. -/
def Cause.mask : Cause → Byte
  | .viewStopped => 1
  | .lateRecords => 2
  | .badWrite => 4
  | .ringRestored => 8
  | .truncated => 16
  | .noticeLost => 32
  | .ringIndex => 64

/-- The bits of a cause set operand that name a cause: bit 7 is ignored (R165, R175). -/
def causeBits : Byte := 127

/-- Whether a cause set holds a cause. -/
def hasCause (set : Byte) (c : Cause) : Bool := set &&& c.mask != 0

/-! ### Alignment flags, the flag byte, the image byte -/

/-- The union of two records' alignment flags (R34). -/
def AlignFlags.union (f g : AlignFlags) : AlignFlags :=
  { gap := f.gap || g.gap, seqBack := f.seqBack || g.seqBack, clamped := f.clamped || g.clamped,
    codeFixed := f.codeFixed || g.codeFixed }

/-- The flag byte (R175): REPEAT, AMBIGUOUS, GAP, SEQ_BACK, CLAMPED, FORCED, CODE_FIXED, prior mark. -/
def flagByte (isRepeat ambiguous : Bool) (f : AlignFlags) (forced priorMark : Bool) : Nat :=
  bit isRepeat + 2 * bit ambiguous + 4 * bit f.gap + 8 * bit f.seqBack + 16 * bit f.clamped + 32 * bit forced
    + 64 * bit f.codeFixed + 128 * bit priorMark

/-- The image byte (R175): the state code in bits 0 to 2, the mark in bit 7. -/
def ImageByte.encode (b : ImageByte) : Byte := byte (b.state.code + 128 * bit b.mark)

/-- The quality class of an uncertainty (R29). -/
def qualityClass (u : Nat) : Nat :=
  if u ≤ 1 then 0 else if u ≤ 10 then 1 else if u ≤ 100 then 2 else if u ≤ 1000 then 3 else if u ≤ 10000 then 4 else 5

/-! ### Clamping -/

/-- `x` clamped to `lo` to `hi`. -/
def clampNat (lo hi x : Nat) : Nat := if x < lo then lo else if hi < x then hi else x

/-- `x` clamped to `lo` to `hi`. -/
def clampInt (lo hi x : Int) : Int := if x < lo then lo else if hi < x then hi else x

/-- The clamp set of a parameter block (R13, R175): bit i set when parameter i was clamped, bit 7 for the position. -/
def clampSet (read kept : AlignParams) (position : Bool) : Nat :=
  bit (decide (read.tickNs ≠ kept.tickNs)) + 4 * bit (decide (read.anchorTime ≠ kept.anchorTime))
    + 8 * bit (decide (read.driftPpb ≠ kept.driftPpb)) + 16 * bit (decide (read.offsetUs ≠ kept.offsetUs))
    + 32 * bit (decide (read.baseUnc ≠ kept.baseUnc)) + 64 * bit (decide (read.driftUncPpb ≠ kept.driftUncPpb))
    + 128 * bit position

/-- The parameters a block's values become (R14). -/
def clampParams (p : AlignParams) : AlignParams :=
  { tickNs := clampNat 1 1000000 p.tickNs
    anchorRaw := p.anchorRaw
    anchorTime := clampNat 0 Config.maxTime p.anchorTime
    driftPpb := clampInt (-1000000) 1000000 p.driftPpb
    offsetUs := clampInt (-10000000) 10000000 p.offsetUs
    baseUnc := clampNat 0 Config.maxUncertainty p.baseUnc
    driftUncPpb := clampNat 0 1000000 p.driftUncPpb }

/-- The interval FORMAT takes (R56): the largest of 1,024, 2,048, 4,096 and 8,192 at or below the operand, and 1,024
for an operand below it. -/
def clampInterval (x : Nat) : Nat := if 8192 ≤ x then 8192 else if 4096 ≤ x then 4096 else if 2048 ≤ x then 2048 else 1024

/-- The weight an ATTACH asks for, clamped (R135). -/
def clampWeight (x : Nat) : Nat := clampNat 1 8 x

/-- The prefetch depth an ATTACH asks for, clamped to 1, 2, 4 or 8 (R135). -/
def clampDepth (x : Nat) : Nat :=
  if x ≤ 1 then 1 else if x ≤ 3 then 2 else if x ≤ 7 then 4 else 8

end Sys2Proof.Machine
end

