-- ==== Sys2Proof/Machine/Operands.lean ====
section
/-! DEFINITION. The operand forms of the part: the fields of a command descriptor, and the blocks a station places in
its staging area (R175). -/

namespace Sys2Proof.Machine

/-- The command kinds (R175). -/
inductive CommandKind where
  | format | loadCatalogue | loadBatch | flush | seal | truncate | readLate | readEntries
  | defineSource | claimSource | releaseSource | endSource | anchorSource | querySource
  | openView | seek | returnMark | mark | park | resume | exchange | closeView
  | run | hold | step | setPace | setStops | setFilter | publish | clearCauses
deriving DecidableEq, Repr

/-- The kind of a code; a code absent from the descriptor table has none (R175). -/
def CommandKind.ofCode : Nat → Option CommandKind
  | 0x01 => some .format
  | 0x02 => some .loadCatalogue
  | 0x03 => some .loadBatch
  | 0x04 => some .flush
  | 0x05 => some .seal
  | 0x06 => some .truncate
  | 0x07 => some .readLate
  | 0x08 => some .readEntries
  | 0x10 => some .defineSource
  | 0x11 => some .claimSource
  | 0x12 => some .releaseSource
  | 0x13 => some .endSource
  | 0x14 => some .anchorSource
  | 0x15 => some .querySource
  | 0x20 => some .openView
  | 0x21 => some .seek
  | 0x22 => some .returnMark
  | 0x23 => some .mark
  | 0x24 => some .park
  | 0x25 => some .resume
  | 0x26 => some .exchange
  | 0x27 => some .closeView
  | 0x30 => some .run
  | 0x31 => some .hold
  | 0x32 => some .step
  | 0x33 => some .setPace
  | 0x34 => some .setStops
  | 0x35 => some .setFilter
  | 0x36 => some .publish
  | 0x40 => some .clearCauses
  | _ => none

/-! ### Descriptor fields (R175, Command descriptor) -/

/-- The unsigned field of `len` bytes at offset `off`. -/
def Descriptor.field (d : Descriptor) (off len : Nat) : Nat := leNat ((d.bytes.drop off).take len)

/-- The tag. -/
def Descriptor.tag (d : Descriptor) : Nat := d.field 0 2
/-- The command kind code as given. -/
def Descriptor.kindCode (d : Descriptor) : Nat := d.field 2 1
/-- The command kind, if recognised. -/
def Descriptor.kind (d : Descriptor) : Option CommandKind := CommandKind.ofCode d.kindCode
/-- The NOTIFY flag. -/
def Descriptor.notify (d : Descriptor) : Bool := d.field 3 1 % 2 == 1
/-- The target as given: view slot, parked id or source id. -/
def Descriptor.target (d : Descriptor) : Nat := d.field 4 2
/-- The second target: the parked id of EXCHANGE. -/
def Descriptor.target2 (d : Descriptor) : Nat := d.field 6 2
/-- A one-byte field that selects between two settings: 0 the first, any other value the second (R175). -/
def Descriptor.select (d : Descriptor) (off : Nat) : Bool := d.field off 1 != 0
/-- The staging-area position at offset 8. -/
def Descriptor.position (d : Descriptor) : Nat := d.field 8 4

/-- The direction a selecting byte gives (R175). -/
def directionOf (second : Bool) : Direction := if second then .backward else .forward
/-- The pace mode a selecting byte gives (R175). -/
def paceModeOf (second : Bool) : PaceMode := if second then .flat else .paced

/-! ### Staging-area blocks (R175, Staging-area blocks), as the local replica `m` holds them -/

/-- The unsigned field of `len` bytes at replica address `a`. -/
def readField (m : List Host.Cell) (a len : Nat) : Nat := leNat (Sparse.read unlistedByte m a len)

/-- The replica address of staging position `pos` of port `p` (R175: 8-byte units). -/
def stagingAddr (p : PortId) (pos : Nat) : Nat := Config.stagingBase p + 8 * pos

/-- The position a block of `size` bytes is read from: the last one at which it lies wholly within the staging area,
when the given one reaches beyond its end (R13, R115, R126). -/
def blockPosition (size pos : Nat) : Nat := if Config.stagingBytes < 8 * pos + size then (Config.stagingBytes - size) / 8 else pos

/-- Whether `blockPosition` moves the block. -/
def blockMoved (size pos : Nat) : Bool := decide (Config.stagingBytes < 8 * pos + size)

/-- A source parameter block as read. -/
def readParams (m : List Host.Cell) (a : Nat) : AlignParams :=
  { tickNs := readField m a 4
    anchorRaw := readField m (a + 4) 6
    anchorTime := readField m (a + 10) 6
    driftPpb := signedOf 32 (readField m (a + 16) 4)
    offsetUs := signedOf 32 (readField m (a + 20) 4)
    baseUnc := readField m (a + 24) 4
    driftUncPpb := readField m (a + 28) 4 }

/-- A raw record as read. -/
structure RawRecord where
  seq : Nat
  raw : Nat
  device : Nat
  state : Nat
  origin : Nat
deriving DecidableEq, Repr

/-- The raw record at replica address `a`. -/
def readRaw (m : List Host.Cell) (a : Nat) : RawRecord :=
  { seq := readField m a 4
    raw := readField m (a + 4) 6
    device := readField m (a + 10) 2
    state := readField m (a + 12) 1
    origin := readField m (a + 13) 1 }

/-- A catalogue load entry as read. -/
structure CatalogueLine where
  device : Nat
  station : Nat
  kind : Nat
  initial : Nat
deriving DecidableEq, Repr

/-- The catalogue load entry at replica address `a`. -/
def readCatalogueLine (m : List Host.Cell) (a : Nat) : CatalogueLine :=
  { device := readField m a 2
    station := readField m (a + 2) 2
    kind := readField m (a + 4) 1
    initial := readField m (a + 5) 1 }

/-- A stop block as read. -/
structure StopBlock where
  breakPresent : Bool
  stopAmbiguous : Bool
  watchCount : Nat
  breakTime : Nat
  devices : List Nat
deriving DecidableEq, Repr

/-- The stop block at replica address `a`, with its 16 device numbers. -/
def readStopBlock (m : List Host.Cell) (a : Nat) : StopBlock :=
  { breakPresent := readField m a 1 != 0
    stopAmbiguous := readField m (a + 1) 1 != 0
    watchCount := readField m (a + 2) 1
    breakTime := readField m (a + 8) 8
    devices := (List.range 16).map fun i => readField m (a + 16 + 2 * i) 2 }

/-- A filter block as read. -/
structure FilterBlock where
  rangeCount : Nat
  kinds : BitVec 4
  ranges : List (Nat × Nat)
deriving DecidableEq, Repr

/-- The filter block at replica address `a`, with its 8 pairs. -/
def readFilterBlock (m : List Host.Cell) (a : Nat) : FilterBlock :=
  { rangeCount := readField m a 1
    kinds := BitVec.ofNat 4 (readField m (a + 1) 1)
    ranges := (List.range 8).map fun i => (readField m (a + 8 + 4 * i) 2, readField m (a + 10 + 4 * i) 2) }

end Sys2Proof.Machine
end

