-- ==== Sys2Proof/Machine/Layouts.lean ====
section
/-! DEFINITION. The bytes of the records the part writes for stations: completion records, readout records and delta
records (R175). -/

namespace Sys2Proof.Machine

/-- A completion record (R175): the descriptor's tag and kind as given, the result code, three detail values. -/
def completionBytes (d : Descriptor) (r : Result) (v1 v2 v3 : Nat) : List Byte :=
  leBytes 2 d.tag ++ [byte d.kindCode, byte r.code] ++ zeros 4 ++ leBytes 8 v1 ++ leBytes 8 v2 ++ leBytes 8 v3

/-- A witness of an entry as read out: 5 bytes. -/
def witnessBytes (w : Nat × Nat) : List Byte := byte w.1 :: leBytes 4 w.2

/-- `bs` filled with zero bytes to `len`. -/
def padTo (len : Nat) (bs : List Byte) : List Byte := bs ++ zeros (len - bs.length)

/-- A journal entry as read out: 32 bytes, its quality class found from its uncertainty (R29, R151, R175). -/
def entryBytes (e : Entry) : List Byte :=
  padTo 32 (leBytes 5 e.time ++ leBytes 2 e.unc ++ leBytes 2 e.device ++
    [byte (e.newState.code + 8 * e.priorState.code + 64 * (e.witnesses.length - 1)),
     byte (flagByte e.isRepeat e.ambiguous e.flags e.forced e.priorMark),
     byte (originCode 7 e.origin + 8 * qualityClass e.unc)] ++ e.witnesses.flatMap witnessBytes)

/-- A late record as read out: 32 bytes (R48, R175). -/
def lateBytes (l : LateRecord) : List Byte :=
  padTo 32 (leBytes 5 l.time ++ leBytes 2 l.unc ++ leBytes 2 l.device ++
    [byte l.state.code, byte (flagByte false false l.flags false false),
     byte (originCode 7 l.origin + 8 * qualityClass l.unc), byte l.src] ++ leBytes 4 l.seq ++
    leBytes 5 l.settled.time ++ leBytes 2 l.settled.unc ++ [byte l.settled.src] ++ leBytes 4 l.settled.seq)

/-- A source parameter block (R175). -/
def paramBytes (p : AlignParams) : List Byte :=
  leBytes 4 p.tickNs ++ leBytes 6 p.anchorRaw ++ leBytes 6 p.anchorTime ++ leBytes 4 (unsignedOf 32 p.driftPpb) ++
    leBytes 4 (unsignedOf 32 p.offsetUs) ++ leBytes 4 p.baseUnc ++ leBytes 4 p.driftUncPpb

/-- An owner port, or 255 for none (R175). -/
def ownerCode : Option PortId → Nat
  | some p => p.val
  | none => 255

/-- A source record as read out: 96 bytes (R152, R175). -/
def sourceBytes (s : Source) : List Byte :=
  padTo 96 ([byte s.state.code, byte (ownerCode s.owner), byte (bit s.maxTime.isSome), 0] ++ leBytes 4 s.nextSeq ++
    leBytes 5 (s.maxTime.getD 0) ++ zeros 3 ++ paramBytes s.params ++
    leBytes 4 s.counters.loaded ++ leBytes 4 s.counters.rejected ++ leBytes 4 s.counters.folded ++
    leBytes 4 s.counters.late ++ leBytes 4 s.counters.lateDropped ++ leBytes 4 s.counters.missing ++
    leBytes 4 s.counters.forced)

/-- A CHANGE record: 32 bytes (R123, R175). The from-state and to-state follow the direction of the frame. -/
def changeBytes (frameNumber pos : Nat) (dir : Direction) (e : Entry) (c : CatalogueEntry) : List Byte :=
  let old := if dir = .forward then e.priorState else e.newState
  let new := if dir = .forward then e.newState else e.priorState
  padTo 32 ([1, byte (old.code + 8 * new.code + 64 * dir.code),
    byte (c.kind.code + 4 * qualityClass e.unc + 32 * (e.witnesses.length - 1)),
    byte (flagByte e.isRepeat e.ambiguous e.flags e.forced false)] ++ leBytes 4 frameNumber ++ leBytes 4 pos ++
    leBytes 5 e.time ++ leBytes 2 e.device ++ leBytes 2 c.station ++
    [byte ((e.witnesses.head?.map Prod.fst).getD 0), byte (originCode 255 e.origin)])

/-- A SEEK_MARK: the cursor reached and the cursor time (R124, R175). -/
def seekMarkBytes (cursor cursorTime : Nat) : List Byte :=
  padTo 32 ([2] ++ zeros 7 ++ leBytes 4 cursor ++ leBytes 5 cursorTime)

/-- A STOP_MARK: the stop cause and, for WATCH, the device (R124, R175). -/
def stopMarkBytes (cause : StopCause) (device : Nat) : List Byte :=
  padTo 32 ([3, byte cause.code] ++ zeros 15 ++ leBytes 2 (if cause = .watch then device else 0))

/-- A view status record: 64 bytes (R133, R175). A FREE slot keeps the producer index alone. -/
def viewStatusBytes (w : View) : List Byte :=
  if w.state = .free then padTo 64 (zeros 14 ++ leBytes 2 w.producer.toNat)
  else padTo 64 (leBytes 4 w.ctx.counter.toNat ++ zeros 4 ++
    [byte w.state.code, byte (bit w.atEdge + 2 * bit w.ctx.published + 4 * w.ctx.direction.code),
     byte w.ctx.owner.val, byte w.ctx.lastStop.code] ++ leBytes 2 w.ctx.watchDevice ++ leBytes 2 w.producer.toNat ++
    leBytes 4 w.ctx.cursor ++ zeros 4 ++ leBytes 5 w.ctx.cursorTime ++ zeros 3 ++ leBytes 2 w.lostMarks)

/-- The first word of a view status record: the frame counter alone (R175). -/
def counterBytes (w : View) : List Byte := leBytes 4 w.ctx.counter.toNat ++ zeros 4

end Sys2Proof.Machine
end

