-- ==== Sys2Proof/Machine/Ops.lean ====
section
/-! DEFINITION. The operations the meanings share: setting one port, view, source or slot, the part's writes and notices
and the Ring Interface's hand-over (R153, R158), page ownership (R154), the status records (R133, R139, R159), causes
and the gate (R162, R163), the end of a command (R148), the arbiter's requests (R170 to R173), the journal as it is read
(R78), and the Checkpoint Directory's choices (R61, R69). -/

namespace Sys2Proof.Machine

/-! ### One element of a table -/

/-- `s` with port context `x` at port `p`. -/
def State.setPort (s : State) (p : PortId) (x : Port) : State := { s with ports := s.ports.set p x }

/-- `s` with view `x` in slot `v`. -/
def State.setView (s : State) (v : Slot) (x : View) : State := { s with views := s.views.set v x }

/-- Source record `i` (R9); an unlisted source holds its reset values. -/
def State.source (s : State) (i : Nat) : Source := Sparse.get {} s.sources i

/-- `s` with source record `x` at source `i`. -/
def State.setSource (s : State) (i : Nat) (x : Source) : State := { s with sources := Sparse.set {} s.sources i x }

/-- `s` with source `i`'s counters changed by `f` (R10). -/
def State.countSource (s : State) (i : Nat) (f : SourceCounters → SourceCounters) : State :=
  s.setSource i { s.source i with counters := f (s.source i).counters }

/-- A 32-bit count raised by `n`, holding at its limit (R10). -/
def raise32 (count n : Nat) : Nat := holdAt Config.maxCount32 (count + n)

/-- Checkpoint slot `k` (R61); an unlisted slot is FREE with no pin. -/
def State.slot (s : State) (k : Nat) : CheckpointSlot := Sparse.get {} s.directory.slots k

/-- `s` with checkpoint slot `x` at slot `k`. -/
def State.setSlot (s : State) (k : Nat) (x : CheckpointSlot) : State :=
  { s with directory := { s.directory with slots := Sparse.set {} s.directory.slots k x } }

/-- The image of checkpoint slot `k`. -/
def State.slotImage (s : State) (k : Nat) : Image := Sparse.get [] s.dram.slotImages k

/-- `s` with the image of checkpoint slot `k` written. -/
def State.setSlotImage (s : State) (k : Nat) (img : Image) : State :=
  { s with dram := { s.dram with slotImages := Sparse.set [] s.dram.slotImages k img } }

/-- `s` with the image of view slot `v` written. -/
def State.setViewImage (s : State) (v : Slot) (img : Image) : State :=
  { s with dram := { s.dram with viewImages := s.dram.viewImages.set v img } }

/-- Parked entry `i` (R97). -/
def State.parkedEntry (s : State) (i : Nat) : Option ViewContext := Sparse.get none s.parked i

/-- `s` with parked entry `i` filled or emptied. -/
def State.setParked (s : State) (i : Nat) (x : Option ViewContext) : State :=
  { s with parked := Sparse.set none s.parked i x }

/-- The catalogue entry of device `d` (R4). -/
def State.catalogueEntry (s : State) (d : Nat) : CatalogueEntry := Sparse.get .unlisted s.catalogue d

/-- Device `d`'s byte of an image. -/
def Image.at (img : Image) (d : Nat) : ImageByte := Sparse.get .unlisted img d

/-- An image with device `d`'s byte set. -/
def Image.put (img : Image) (d : Nat) (b : ImageByte) : Image := Sparse.set .unlisted img d b

/-! ### The local replica and the part's own packets (R153, R158) -/

/-- `len` bytes of the local replica from address `a` on. -/
def State.bytesAt (s : State) (a len : Nat) : List Byte := Sparse.read unlistedByte s.ring.replica a len

/-- The 16-bit index word at address `a`: bytes 0 to 1 (R175). -/
def State.indexAt (s : State) (a : Nat) : Index := BitVec.ofNat 16 (readField s.ring.replica a 2)

/-- The replica with the bytes `bs` written from address `a` on. -/
def replicaWrite (m : List Host.Cell) (a : Nat) (bs : List Byte) : List Host.Cell := Sparse.setRange unlistedByte m a bs

/-- A write as consecutive packets of at most 256 bytes in increasing address order (R158). The first argument bounds
the number of packets. -/
def writePackets (sender : Node) : Nat → Nat → List Byte → List Packet
  | 0, _, _ => []
  | n + 1, a, bs =>
    if bs = [] then [] else .write sender a (bs.take 256) 0 :: writePackets sender n (a + 256) (bs.drop 256)

/-- The part writes `bs` to its own pages at `a`: it takes effect in the local replica at once, and while the ring is UP
it is held for sending (R153, R158). -/
def State.partWrite (s : State) (a : Nat) (bs : List Byte) : State :=
  { s with ring := { s.ring with
      replica := replicaWrite s.ring.replica a bs
      own := if s.ring.up then s.ring.own ++ writePackets s.ring.node bs.length a bs else s.ring.own } }

/-- The part sends a notice: held for sending while the ring is UP, discarded while it is DOWN (R158). -/
def State.sendNotice (s : State) (target : Node) (type : NoticeType) (datum : BitVec 32) : State :=
  if s.ring.up then { s with ring := { s.ring with own := s.ring.own ++ [.notice s.ring.node target type datum 0] } } else s

/-- Who owns a page of the replica space (R154). -/
inductive PageOwner where
  | part
  | node (n : Node)
  | nobody
deriving DecidableEq, Repr

/-- The owner of the page that holds address `a` (R154): the map is fixed but for the lower half of each port region,
which the node bound to the port owns while its detach is not in progress. -/
def pageOwner (s : State) (a : Nat) : PageOwner :=
  if 0x800000 ≤ a then .part
  else if 0x80000 ≤ a % 0x100000 then .part
  else
    let p := s.ports[(Fin.ofNat 8 (a / 0x100000))]
    if p.detaching then .nobody
    else match p.bound with
      | some n => .node n
      | none => .nobody

/-- The port a node is bound to: a binding whose detach is in progress counts as none (R135, R137). -/
def portOf (s : State) (n : Node) : Option PortId :=
  (List.finRange 8).find? fun p => decide (s.ports[p].bound = some n ∧ s.ports[p].detaching = false)

/-- The ports that are bound and not detaching, in increasing number. A cause raised on every bound port reaches them in
this order (R161, R168; DESIGN CHOICE, log entry 25). -/
def boundPorts (s : State) : List PortId :=
  (List.finRange 8).filter fun p => s.ports[p].bound.isSome && !s.ports[p].detaching

/-! ### The same-resource order (R145) -/

/-- Whether a kind names a view slot as its target. -/
def CommandKind.usesSlot : CommandKind → Bool
  | .seek | .returnMark | .mark | .park | .exchange | .closeView | .run | .hold | .step | .setPace | .setStops
  | .setFilter | .publish => true
  | _ => false

/-- Whether a kind names a source as its target. -/
def CommandKind.usesSource : CommandKind → Bool
  | .defineSource | .claimSource | .releaseSource | .endSource | .anchorSource | .loadBatch | .querySource => true
  | _ => false

/-- Whether a kind uses the port's readout area. -/
def CommandKind.usesReadout : CommandKind → Bool
  | .readEntries | .readLate | .querySource => true
  | _ => false

/-- Whether a kind uses the journal shared. -/
def CommandKind.sharesJournal : CommandKind → Bool
  | .loadBatch | .openView | .seek | .returnMark | .resume | .exchange | .readEntries | .readLate => true
  | _ => false

/-- Whether a kind uses the journal whole. -/
def CommandKind.wholeJournal : CommandKind → Bool
  | .format | .loadCatalogue | .flush | .seal | .truncate => true
  | _ => false

/-- Whether a kind takes the journal reservation (R51). -/
def CommandKind.reserves : CommandKind → Bool
  | .format | .loadCatalogue | .seal | .truncate => true
  | _ => false

/-- Whether a started command of this kind holds back the start of a reserving command (R51): batches, flushes, seeks
and readouts. -/
def CommandKind.journalWork : CommandKind → Bool
  | .loadBatch | .flush | .openView | .seek | .returnMark | .resume | .exchange | .readEntries | .readLate => true
  | _ => false

/-- Whether two commands of one port conflict (R145). Targets are compared as the descriptors give them, and a command
whose kind is not recognised uses no resource. -/
def conflict (d e : Descriptor) : Bool :=
  match d.kind, e.kind with
  | some k, some l =>
    (k.usesSlot && l.usesSlot && d.target == e.target) || (k.usesSource && l.usesSource && d.target == e.target)
      || (k.usesReadout && l.usesReadout)
      || (k.wholeJournal && (l.wholeJournal || l.sharesJournal)) || (k.sharesJournal && l.wholeJournal)
  | _, _ => false

/-- The oldest eligible descriptor of a buffer and the buffer without it, `earlier` being the commands before the
buffer's first that have not ended (R145). -/
def takeEligible (earlier : List Descriptor) : List Descriptor → Option (Descriptor × List Descriptor)
  | [] => none
  | d :: ds =>
    if earlier.any (conflict d) then (takeEligible (earlier ++ [d]) ds).map fun r => (r.1, d :: r.2) else some (d, ds)

/-- The oldest eligible command of a port and the buffer it leaves. -/
def Port.eligible (p : Port) : Option (Descriptor × List Descriptor) :=
  takeEligible (p.inFlight.map InFlight.descriptor) p.buffer

/-! ### Completion slots and the fetch state (R140, R144) -/

/-- The completion records written and not yet consumed: U of R144. -/
def unconsumed (s : State) (p : PortId) : Nat :=
  Index.distance s.ports[p].produced (s.indexAt (Config.consumerAddr p))

/-- The free completion slots: F of R144, 0 where U is above 256. -/
def freeCompletions (s : State) (p : PortId) : Nat :=
  if Config.ringEntries < unconsumed s p then 0 else Config.ringEntries - s.ports[p].inFlight.length - unconsumed s p

/-- The fetch states (R140). -/
inductive FetchState where
  | stopped | idle | fetching | waiting | halted
deriving DecidableEq, Repr

/-- The fetch state codes (R175). -/
def FetchState.code : FetchState → Nat
  | .stopped => 0
  | .idle => 1
  | .fetching => 2
  | .waiting => 3
  | .halted => 4

/-- The fetch state a port reports: the first of R140's whose condition holds. -/
def fetchState (s : State) (p : PortId) : FetchState :=
  let x := s.ports[p]
  if x.bound.isNone || x.detaching then .stopped
  else if x.halted then .halted
  else if x.eligible.isSome && (decide (x.depth ≤ x.inFlight.length) || freeCompletions s p == 0) then .waiting
  else if x.look && decide (x.buffer.length < x.depth) then .fetching
  else .idle

/-! ### Status records (R139, R159, R175) -/

/-- A port status record: 24 bytes. -/
def portStatusBytes (s : State) (p : PortId) : List Byte :=
  let x := s.ports[p]
  padTo 24 ([byte (fetchState s p).code, byte (bit x.detaching + 2 * bit x.pendingDepth.isSome + 4 * bit x.fired),
    byte ((x.bound.map Fin.val).getD 0), byte x.weight, byte x.depth, byte (x.pendingDepth.getD 0), x.causes, 0] ++
    leBytes 2 x.head.toNat ++ leBytes 2 x.produced.toNat ++ leBytes 2 x.buffer.length ++ leBytes 2 x.inFlight.length ++
    leBytes 2 x.haltValue.toNat)

/-- The Port Controller rewrites a port status record (R139). -/
def State.writePortStatus (s : State) (p : PortId) : State := s.partWrite (Config.portStatusAddr p) (portStatusBytes s p)

/-- A binding table entry: 8 bytes (R159, R175). -/
def bindingBytes (x : Port) : List Byte :=
  match x.bound with
  | some n => [byte (if x.detaching then 2 else 1), byte n.val, byte x.weight, byte x.depth] ++ zeros 4
  | none => zeros 8

/-- The checkpoint count: the number of IN_USE slots (R61). -/
def checkpointCount (s : State) : Nat := s.directory.slots.countP fun c => decide (c.2.state = .inUse)

/-- The last refused node's byte (R175). -/
def refusedByte : Option Node → Byte
  | some n => byte (128 + n.val)
  | none => 0

/-- The settled key's 16 bytes of the part status page (R175). -/
def settledBytes : Option Key → List Byte
  | some k => leBytes 5 k.time ++ leBytes 2 k.unc ++ [1, byte k.src] ++ leBytes 4 k.seq ++ zeros 3
  | none => zeros 16

/-- The fields of the part status page: its first 128 bytes (R175). The strapped ring size is shown as R166 takes it, 2 to
32 (DESIGN CHOICE, log entry 27). -/
def partStatusBytes (s : State) : List Byte :=
  [byte (bit s.ring.up), byte s.ring.node.val, byte s.ring.size, byte s.journal.state.code,
    byte s.ring.lossFlags.toNat, refusedByte s.ring.lastRefused] ++ zeros 2 ++
    leBytes 4 s.journal.committed ++ leBytes 2 s.merge.window.length ++ leBytes 2 s.merge.late.length ++
    leBytes 2 (checkpointCount s) ++ leBytes 2 s.directory.interval ++ zeros 4 ++
    settledBytes s.merge.settled ++ zeros 24 ++ s.ports.toList.flatMap bindingBytes

/-- The words of the part status page from offset `off` on, `len` bytes of them, are rewritten (R159). -/
def State.writePartStatus (s : State) (off len : Nat) : State :=
  s.partWrite (Config.partStatusAddr + off) (((partStatusBytes s).drop off).take len)

/-- The word with the ring state, the journal state, the loss flags and the last refused node. -/
def State.writeRingWord (s : State) : State := s.writePartStatus 0 8
/-- The word with the committed count and the two occupancies. -/
def State.writeCountsWord (s : State) : State := s.writePartStatus 8 8
/-- The word with the checkpoint count and the interval. -/
def State.writeDirectoryWord (s : State) : State := s.writePartStatus 16 8
/-- The two words of the settled key. -/
def State.writeSettledWords (s : State) : State := s.writePartStatus 24 16
/-- Port `p`'s entry of the binding table. -/
def State.writeBinding (s : State) (p : PortId) : State := s.writePartStatus (64 + 8 * p.val) 8
/-- The whole part status page (R165, R168). -/
def State.writePartPage (s : State) : State := s.partWrite Config.partStatusAddr (padTo 4096 (partStatusBytes s))

/-- The View Engine writes slot `v`'s view status record (R133). -/
def State.writeViewStatus (s : State) (v : Slot) : State := s.partWrite (Config.viewStatusAddr v) (viewStatusBytes s.views[v])

/-- The View Engine writes slot `v`'s counter word alone (R127, R130, R175). -/
def State.writeCounter (s : State) (v : Slot) : State := s.partWrite (Config.viewStatusAddr v) (counterBytes s.views[v])

/-! ### Causes and the gate (R162, R163) -/

/-- The gate of port `p` acts on the cause set as it stands: an ARMED gate, the ring UP, sends ATTENTION with the set and
becomes FIRED (R163). -/
def fireGate (s : State) (p : PortId) : State :=
  match s.ports[p].bound with
  | some n =>
    if s.ring.up && !s.ports[p].fired then
      let s := s.sendNotice n .attention (s.ports[p].causes.setWidth 32)
      (s.setPort p { s.ports[p] with fired := true }).writePortStatus p
    else s
  | none => s

/-- Cause `c` is raised on port `p` (R162): not recorded on an unbound or detaching port; else present, the record
rewritten, and the gate acts. -/
def raiseCause (s : State) (p : PortId) (c : Cause) : State :=
  if s.ports[p].bound.isSome && !s.ports[p].detaching then
    fireGate ((s.setPort p { s.ports[p] with causes := s.ports[p].causes ||| c.mask }).writePortStatus p) p
  else s

/-- A cause raised on the port that owns something, if it has an owner (R12). -/
def raiseOn (s : State) (p : Option PortId) (c : Cause) : State :=
  match p with
  | some p => raiseCause s p c
  | none => s

/-- A cause raised on every bound port (R56, R58, R161, R168). -/
def raiseOnAll (s : State) (c : Cause) : State := (boundPorts s).foldl (fun s p => raiseCause s p c) s

/-! ### Commands in flight (R146 to R148) -/

/-- The in-flight command of dispatch number `n` and its port. -/
def findCommand (s : State) (n : Nat) : Option (PortId × InFlight) :=
  (List.finRange 8).findSome? fun p => (s.ports[p].inFlight.find? fun c => c.serial == n).map fun c => (p, c)

/-- The commands in flight at every port. -/
def allInFlight (s : State) : List InFlight := s.ports.toList.flatMap Port.inFlight

/-- A pending lower depth takes effect once the buffered and the in-flight commands each number no more than it (R135). The
status record and the binding entry with the new depth are writes of their own, behind those of the event that lets it
(DESIGN CHOICE, log entry 33). -/
def applyPendingDepth (s : State) (p : PortId) : State :=
  match s.ports[p].pendingDepth with
  | some d =>
    if s.ports[p].buffer.length ≤ d ∧ s.ports[p].inFlight.length ≤ d then
      ((s.setPort p { s.ports[p] with depth := d, pendingDepth := none }).writePortStatus p).writeBinding p
    else s
  | none => s

/-- The command of dispatch number `n` has been started by its owning block. -/
def markStarted (s : State) (n : Nat) : State :=
  { s with ports := s.ports.map fun x =>
      { x with inFlight := x.inFlight.map fun c => if c.serial = n then { c with started := true } else c } }

/-- Port `p` writes completions: it is bound and not detaching (R148). -/
def reports (s : State) (p : PortId) : Bool := s.ports[p].bound.isSome && !s.ports[p].detaching

/-- The place in flight of command `n` of port `p` is released (R137, R148). -/
def Port.released (x : Port) (n : Nat) : Port := { x with inFlight := x.inFlight.filter fun c => c.serial != n }

/-- The COMPLETION notice of a command whose NOTIFY flag is set, with the ring index of its record (R148). -/
def notifyEnd (s : State) (bound : Option Node) (d : Descriptor) (index : Index) : State :=
  match bound with
  | some node => if d.notify then s.sendNotice node .completion (index.setWidth 32) else s
  | none => s

/-- The completion of command `n` of a port that reports (R148): the record, the raised producer index with the lowered
in-flight count, and the notice, in this order. -/
def writeCompletion (s : State) (n : Nat) (p : PortId) (d : Descriptor) (r : Result) (v1 v2 v3 : Nat) : State :=
  let x := s.ports[p]
  let s := s.partWrite (Config.completionEntry p (x.produced.toNat % Config.ringEntries)) (completionBytes d r v1 v2 v3)
  let s := (s.setPort p { x.released n with produced := x.produced + 1 }).writePortStatus p
  notifyEnd s x.bound d x.produced

/-- The command of dispatch number `n` ends with result `r` and detail values `v1`, `v2`, `v3` (R148). While the port is
detaching only the in-flight count is lowered (R137). Either may let a pending depth take effect (R135): the status record
of R148's step 2 still shows the old depth, and the record and the binding entry with the new one follow the notice
(DESIGN CHOICE, log entry 33). -/
def complete (s : State) (n : Nat) (r : Result) (v1 v2 v3 : Nat) : State :=
  match findCommand s n with
  | none => s
  | some (p, c) =>
    if reports s p then applyPendingDepth (writeCompletion s n p c.descriptor r v1 v2 v3) p
    else applyPendingDepth ((s.setPort p (s.ports[p].released n)).writePortStatus p) p

/-! ### The journal reservation (R51) -/

/-- Some reserving command is in flight: the reservation is held from its dispatch to its completion. -/
def reservationHeld (s : State) : Bool :=
  (allInFlight s).any fun c => match c.descriptor.kind with
    | some k => k.reserves
    | none => false

/-- A reserving command of dispatch number `n` may start: no earlier one is in flight, and no batch, flush, seek or
readout that has started is (R51). -/
def mayReserve (s : State) (n : Nat) : Bool :=
  s.journal.reserved.isNone &&
  (allInFlight s).all fun c => match c.descriptor.kind with
    | some k => !(k.reserves && decide (c.serial < n)) && !(k.journalWork && c.started)
    | none => true

/-! ### The arbiter's requests (R170 to R173) -/

/-- Whether a requester has a request waiting or granted. -/
def Arbiter.presents (a : Arbiter) (w : Requester) : Bool :=
  a.waiting.any (fun r => r.who == w) || a.channel.any (fun r => r.who == w)

/-- A requester that presents nothing presents the next of its requests (R170). -/
def Arbiter.present (a : Arbiter) (w : Requester) : Arbiter :=
  if a.presents w then a
  else match a.backlog.find? (fun r => r.who == w) with
    | some r => { a with waiting := a.waiting ++ [r], backlog := a.backlog.eraseP (fun r => r.who == w) }
    | none => a

/-- A requester's operation asks for the series `rs`, behind what it has still to present. -/
def Arbiter.submit (a : Arbiter) (w : Requester) (rs : List Request) : Arbiter :=
  Arbiter.present { a with backlog := a.backlog ++ rs } w

/-- The granted transfer ends, and its requester presents its next request (R170, R171). -/
def Arbiter.finish (a : Arbiter) : Arbiter :=
  match a.channel with
  | some r => Arbiter.present { a with channel := none } r.who
  | none => a

/-- The requests of a class that wait. -/
def Arbiter.ofClass (a : Arbiter) (c : RequestClass) : List Request := a.waiting.filter fun r => r.cls == c

/-- A class's ageing count. -/
def Arbiter.age (a : Arbiter) : RequestClass → Nat
  | .a => a.ageA
  | .b => a.ageB
  | .c => a.ageC
  | .d => a.ageD

/-- A class with no request waiting has ageing count 0 (R171). -/
def Arbiter.clearAges (a : Arbiter) : Arbiter :=
  { a with
    ageA := if (a.ofClass .a).isEmpty then 0 else a.ageA
    ageB := if (a.ofClass .b).isEmpty then 0 else a.ageB
    ageC := if (a.ofClass .c).isEmpty then 0 else a.ageC
    ageD := if (a.ofClass .d).isEmpty then 0 else a.ageD }

/-- The reads of slot `v`'s discarded frame that wait or are still to be presented are withdrawn; one that holds the
channel runs to its end, and its data are discarded (R173). -/
def Arbiter.withdrawFrame (a : Arbiter) (v : Slot) : Arbiter :=
  let mine : Request → Bool := fun r => r.who == .view v && r.kind == .frameRead
  let a := { a with
    waiting := a.waiting.filter fun r => !mine r
    backlog := a.backlog.filter fun r => !mine r
    channel := a.channel.map fun r => if mine r then { r with kind := .discarded, last := false } else r }
  Arbiter.clearAges (Arbiter.present a (.view v))

/-- `s` with a requester's series submitted. -/
def State.submit (s : State) (w : Requester) (rs : List Request) : State := { s with arbiter := s.arbiter.submit w rs }

/-- `n` requests of one kind, the last of them ending the operation when `ends`. -/
def requests (w : Requester) (c : RequestClass) (k : RequestKind) (n : Nat) (ends : Bool) : List Request :=
  (List.range n).map fun i => ⟨w, c, k, ends && i + 1 == n⟩

/-- The number of transfers that move `n` things, `per` to a transfer (R174). -/
def transfers (n per : Nat) : Nat := (n + per - 1) / per

/-- A read and an image write for each 64 entries rolled (R174); the last write ends the operation. -/
def rollRequests (v : Slot) (n : Nat) : List Request :=
  let k := transfers n Config.blockEntries
  (List.range k).flatMap fun i => [⟨.view v, .b, .seekRoll, false⟩, ⟨.view v, .b, .seekRoll, i + 1 == k⟩]

/-- The channel holds the request of `w` and `k` that ends its operation. -/
def channelEnds (s : State) (w : Requester) (k : RequestKind) : Bool :=
  match s.arbiter.channel with
  | some r => r.who == w && r.kind == k && r.last
  | none => false

/-- The transfer on the channel ends. -/
def State.finishTransfer (s : State) : State := { s with arbiter := s.arbiter.finish }

/-! ### Reading the journal (R78, R83) -/

/-- What a position the journal region has never held reads as; no operation of the part reads one. -/
def Entry.unwritten : Entry := ⟨0, 0, 0, .unknown, .unknown, false, false, false, false, {}, none, []⟩

/-- The entry at position `i` as the stacked DRAM holds it. -/
def entryAt (s : State) (i : Nat) : Entry := s.dram.journal.getD i .unwritten

/-- The committed entries, in position order. -/
def committedEntries (s : State) : List Entry := s.dram.journal.take s.journal.committed

/-- The number of committed entries whose time is below `t`. -/
def countBelow (s : State) (t : Nat) : Nat := (committedEntries s).countP fun e => decide (e.time < t)

/-- The number of committed entries whose time is at or below `t`. -/
def countUpTo (s : State) (t : Nat) : Nat := (committedEntries s).countP fun e => decide (e.time ≤ t)

/-- A window's base (R78). -/
def windowBase (s : State) (c : ViewContext) : Nat := countBelow s c.windowStart

/-- A window's limit (R78). -/
def windowLimit (s : State) (c : ViewContext) : Nat :=
  match c.windowEnd with
  | some t => countUpTo s t
  | none => s.journal.committed

/-- The entries at positions `a` to `b` − 1, in position order. -/
def entriesBetween (s : State) (a b : Nat) : List Entry := (s.dram.journal.take b).drop a

/-- Applies an entry forward (R83). -/
def Image.applyForward (img : Image) (e : Entry) : Image := img.put e.device ⟨e.newState, e.ambiguous⟩

/-- Applies an entry backward (R83). -/
def Image.applyBackward (img : Image) (e : Entry) : Image := img.put e.device ⟨e.priorState, e.priorMark⟩

/-- Applies entries forward in the order given. -/
def Image.rollForward (img : Image) (es : List Entry) : Image := es.foldl Image.applyForward img

/-- Applies entries backward, the last given first. -/
def Image.rollBackward (img : Image) (es : List Entry) : Image := es.reverse.foldl Image.applyBackward img

/-- The image at cursor `p`, from the image `img` at cursor `q` (R86). -/
def rollImage (s : State) (img : Image) (q p : Nat) : Image :=
  if q ≤ p then img.rollForward (entriesBetween s q p) else img.rollBackward (entriesBetween s p q)

/-! ### The Checkpoint Directory (R61, R69) -/

/-- A checkpoint write is in flight, the wait of a due one counted as part of it (R45, R65). -/
def checkpointHold (s : State) : Bool := s.directory.write.isSome || s.directory.due.isSome

/-- The lowest-numbered FREE slot with a pin count of 0 (R64). -/
def lowestFreeSlot (s : State) : Option Nat :=
  (List.range Config.checkpointSlots).find? fun k => decide ((s.slot k).state = .free ∧ (s.slot k).pins = 0)

/-- Of two checkpoints, the one at the higher position. -/
def higherSlot (best : Option (Nat × CheckpointSlot)) (c : Nat × CheckpointSlot) : Option (Nat × CheckpointSlot) :=
  match best with
  | some b => if b.2.pos < c.2.pos then some c else some b
  | none => some c

/-- The seek base for position `p` (R69): the IN_USE slot with the highest position at or below it. Once a FORMAT has
completed there is one; where there is none, no seek starts and the number named here is not used. -/
def seekBase (s : State) (p : Nat) : Nat :=
  (((s.directory.slots.filter fun c => c.2.state == .inUse && decide (c.2.pos ≤ p)).foldl higherSlot none).map Prod.fst).getD 0

/-- Slot `k` freed: it keeps its pin count (R66); its position is not used, and is 0 (DESIGN CHOICE, log entry 21). -/
def CheckpointSlot.freed (x : CheckpointSlot) : CheckpointSlot := { state := .free, pos := 0, pins := x.pins }

/-- Every slot for which `f` holds is freed. -/
def freeSlots (s : State) (f : CheckpointSlot → Bool) : State :=
  { s with directory := { s.directory with
      slots := (s.directory.slots.map fun c => if f c.2 then (c.1, c.2.freed) else c).filter fun c => c.2 != {} } }

/-- A load pins its slot (R69). -/
def pin (s : State) (k : Nat) : State := s.setSlot k { s.slot k with pins := (s.slot k).pins + 1 }

/-- A slot's pin count falls by one (R70). -/
def unpin (s : State) (k : Nat) : State := s.setSlot k { s.slot k with pins := (s.slot k).pins - 1 }

/-- A checkpoint write of `slot` begins: 16 requests of class C (R64, R170). -/
def beginCheckpointWrite (s : State) (w : CheckpointWrite) : State :=
  let s := { s with directory := { s.directory with write := some w, due := none } }
  s.submit .checkpointWriter (requests .checkpointWriter .c .checkpointWrite 16 true)

/-- The write of the checkpoint due at position `q` takes the lowest-numbered FREE slot without a pin, and waits while
there is none (R64, R65). -/
def takeFreeSlot (s : State) (q : Nat) : State :=
  match lowestFreeSlot s with
  | some k => beginCheckpointWrite (s.setSlot k { s.slot k with state := .writing, pos := q }) ⟨k, q, false⟩
  | none => s

/-- A load's read of its slot has ended (R70). Where a due write waits because no FREE slot is without a pin, its copy
begins as soon as this slot is one (R65). -/
def releasePin (s : State) (k : Nat) : State :=
  match s.directory.due, s.directory.write, lowestFreeSlot s with
  | some q, none, none => takeFreeSlot (unpin s k) q
  | _, _, _ => unpin s k

end Sys2Proof.Machine
end

