-- ==== Sys2Proof/Machine/Alignment.lean ====
section
/-! DEFINITION. The alignment computation and the sequence check of one raw record (R21, R23 to R28). -/

namespace Sys2Proof.Machine

/-- x / 10^9 rounded to the nearest integer, an exact half away from zero (R26). -/
def roundHalfAway (x : Int) : Int :=
  let q : Int := (((x.natAbs + 500000000) / 1000000000 : Nat) : Int)
  if x < 0 then -q else q

/-- The smallest integer at or above a / b. -/
def ceilDiv (a b : Nat) : Nat := (a + b - 1) / b

/-- What alignment yields (R24). -/
structure Aligned where
  time : Nat
  unc : Nat
  clamped : Bool
deriving DecidableEq, Repr

/-- Elapsed nanoseconds since the anchor: N = (R − anchor_raw) × tick_ns (R25). -/
def elapsedNs (p : AlignParams) (raw : Nat) : Int := ((raw : Int) - p.anchorRaw) * p.tickNs

/-- The study time in nanoseconds: T_ns of R27, with the drift correction C of R26. -/
def studyNs (p : AlignParams) (raw : Nat) : Int :=
  (p.anchorTime : Int) * 1000 + elapsedNs p raw - roundHalfAway (elapsedNs p raw * p.driftPpb) + p.offsetUs * 1000

/-- The uncertainty before it is held at 65,535 (R28; one worked case says otherwise: DEDUCED, log entry 17). -/
def rawUncertainty (p : AlignParams) (raw : Nat) : Nat :=
  p.baseUnc + ceilDiv ((elapsedNs p raw).natAbs / 1000 * p.driftUncPpb) 1000000000

/-- The nearest microsecond of a study time in nanoseconds that is not negative (R27). -/
def nearestMicrosecond (ns : Int) : Nat := ((ns + 500) / 1000).toNat

/-- The alignment of raw time `raw` under parameters `p` (R24 to R28). -/
def align (p : AlignParams) (raw : Nat) : Aligned :=
  let n := elapsedNs p raw
  if Config.maxElapsed < n.natAbs then ⟨if n < 0 then 0 else Config.maxTime, Config.maxUncertainty, true⟩
  else
    let u := min (rawUncertainty p raw) Config.maxUncertainty
    let ns := studyNs p raw
    if ns < 0 then ⟨0, u, true⟩
    else if Config.maxTime < nearestMicrosecond ns then ⟨Config.maxTime, u, true⟩
    else ⟨nearestMicrosecond ns, u, false⟩

/-- The sequence check (R21) on a source: its missing counter and next_seq after a record numbered `seq`. -/
def sequenceCheck (src : Source) (seq : Nat) : Source :=
  { src with
    nextSeq := max src.nextSeq (min (seq + 1) Config.maxCount32)
    counters := { src.counters with
      missing := if src.nextSeq < seq then raise32 src.counters.missing (seq - src.nextSeq) else src.counters.missing } }

/-- A reported state as taken, and whether it was repaired (R23). -/
def repairState (code : Nat) : SwitchState × Bool :=
  match SwitchState.ofCode code with
  | some st => (st, false)
  | none => (.unknown, true)

/-- max_time_seen after a record aligned to `t` (R30). -/
def seenTime (m : Option Nat) (t : Nat) : Option Nat :=
  match m with
  | some x => some (max x t)
  | none => some t

end Sys2Proof.Machine
end

