-- ==== Sys2Proof/Machine/Merge.lean ====
section
/-! DEFINITION. The Merge Unit: ordering keys, folding, ambiguity, the late list, the settled horizon and commit
(R2, R33 to R48). -/

namespace Sys2Proof.Machine

/-! ### Keys (R2) -/

/-- Key order, field by field (R2). -/
def Key.lt (a b : Key) : Bool :=
  decide (a.time < b.time) || (a.time == b.time && (decide (a.unc < b.unc) || (a.unc == b.unc &&
    (decide (a.src < b.src) || (a.src == b.src && decide (a.seq < b.seq))))))

/-- At or below in key order. -/
def Key.le (a b : Key) : Bool := !b.lt a

/-- The key a witness gives a record it stands first in (R2). -/
def Witness.key (w : Witness) : Key := ⟨w.time, w.unc, w.src, w.seq⟩

/-- A window record's ordering key (R34). -/
def WindowRecord.key (r : WindowRecord) : Key := r.first.key

/-- A window record's witnesses, best first (R33). -/
def WindowRecord.witnesses (r : WindowRecord) : List Witness := r.first :: r.others

/-- A window record's alignment flags: the union of its witnesses' (R34). -/
def WindowRecord.flags (r : WindowRecord) : AlignFlags := r.others.foldl (fun f w => f.union w.flags) r.first.flags

/-- An entry's ordering key. -/
def Entry.key (e : Entry) : Key :=
  match e.witnesses with
  | w :: _ => ⟨e.time, e.unc, w.1, w.2⟩
  | [] => ⟨e.time, e.unc, 0, 0⟩

/-- The distance between two times. -/
def timeDistance (a b : Nat) : Nat := (a - b) + (b - a)

/-- A record put in its place in a window sorted by key (R33). -/
def insertRecord (r : WindowRecord) : List WindowRecord → List WindowRecord
  | [] => [r]
  | x :: xs => if r.key.lt x.key then r :: x :: xs else x :: insertRecord r xs

/-! ### Folding (R36, R38, R39) -/

/-- Whether a record holds a witness of this source and sequence number (R36). -/
def holdsWitness (r : WindowRecord) (src seq : Nat) : Bool := r.witnesses.any fun w => w.src == src && w.seq == seq

/-- Whether a window record can take an arrival (R38). -/
def canTake (a : Arrival) (r : WindowRecord) : Bool :=
  r.device == a.device && r.state == a.state && r.witnesses.all (fun w => w.src != a.witness.src) &&
    decide (timeDistance r.first.time a.witness.time ≤ min (a.witness.unc + r.first.unc) Config.foldLimit)

/-- Of the window records that can take the arrival, the one nearest in time, the lower-keyed of two equally near (R38):
the window is in key order, so a later record wins only when strictly nearer. -/
def foldTarget (a : Arrival) (w : List WindowRecord) : Option WindowRecord :=
  w.foldl (fun best r =>
    if canTake a r then
      match best with
      | none => some r
      | some b =>
        if timeDistance r.first.time a.witness.time < timeDistance b.first.time a.witness.time then some r else some b
    else best) none

/-- Best-first order (R39): smaller uncertainty, then earlier arrival. -/
def Witness.better (x y : Witness) : Bool := decide (x.unc < y.unc) || (x.unc == y.unc && decide (x.order < y.order))

/-- A witness put in its place in a best-first list (R39). -/
def insertWitness (x : Witness) : List Witness → List Witness
  | [] => [x]
  | y :: ys => if x.better y then x :: y :: ys else y :: insertWitness x ys

/-- A record with an arrival's witness joined, and the witness dropped from a full list (R39). -/
def joinWitness (r : WindowRecord) (x : Witness) : WindowRecord × Option Witness :=
  match insertWitness x r.witnesses with
  | f :: rest => ({ r with first := f, others := rest.take 3 }, rest[3]?)
  | [] => (r, none)

/-- A window without the record of key `k`. -/
def removeRecord (k : Key) (w : List WindowRecord) : List WindowRecord := w.filter fun r => decide (r.key ≠ k)

/-! ### The settled horizon (R41) -/

/-- The settled horizon over the source table as it stands (R41). -/
def horizon (s : State) : Horizon :=
  s.sources.foldl (fun h c =>
    match c.2.state, c.2.maxTime with
    | .streaming, some t =>
      match h with
      | .unbounded => .upTo ((t : Int) - s.journal.slack)
      | .upTo x => .upTo (min x ((t : Int) - s.journal.slack))
    | _, _ => h) .unbounded

/-- Whether a horizon settles a time (R42). -/
def Horizon.settles : Horizon → Nat → Bool
  | .unbounded, _ => true
  | .upTo h, t => decide ((t : Int) ≤ h)

/-- A commit run starts, with the horizon as it stands (R42). -/
def startRun (s : State) : State := { s with merge := { s.merge with run := some (horizon s) } }

/-! ### Commit (R43, R45) -/

/-- Commits are held (R45). -/
def commitsHeld (s : State) : Bool :=
  checkpointHold s || s.journal.committed == Config.journalCapacity || s.journal.state == .rebuilding

/-- SEAL's first step is in progress (R55). -/
def sealing (s : State) : Bool :=
  match s.journal.reserved with
  | some r => match r.work with
    | .sealing _ => true
    | _ => false
  | none => false

/-- The journal entry a window record makes (R43). -/
def entryOf (s : State) (r : WindowRecord) (forced : Bool) : Entry :=
  let prior := s.merge.image.at r.device
  { time := r.first.time
    unc := r.first.unc
    device := r.device
    newState := r.state
    priorState := prior.state
    priorMark := prior.mark
    isRepeat := r.state == prior.state
    ambiguous := r.ambiguous
    forced := forced
    flags := r.flags
    origin := r.first.origin
    witnesses := r.witnesses.map fun w => (w.src, w.seq) }

/-- The commit writer's one request (R170). -/
def commitRequest : Request := ⟨.commitWriter, .c, .commitWrite, true⟩

/-- The write of the lowest-keyed window record begins (R43). The record leaves the window when the write ends (R44). -/
def beginCommit (s : State) (forced : Bool) : State :=
  match s.merge.window with
  | [] => s
  | r :: w =>
    let e := entryOf s r (forced || r.forced)
    let s := { s with merge := { s.merge with window := { r with forced := forced || r.forced } :: w, writing := some e } }
    s.submit .commitWriter [commitRequest]

/-- Whether the lowest-keyed window record is to be committed: it is settled by the run in progress (R42), at or below
the key of a flush (R54), or SEAL commits the window (R55). -/
def wantsCommit (s : State) (r : WindowRecord) : Bool :=
  (match s.merge.run with
    | some h => h.settles r.first.time
    | none => false) || s.merge.flushes.any (fun f => r.key.le f.noted) || sealing s

/-- The next commit begins if none is being written, commits are not held, and the lowest-keyed record is to be
committed; otherwise a run in progress stops (R42). -/
def pumpCommits (s : State) : State :=
  if s.merge.writing.isSome then s
  else
    let stopped := { s with merge := { s.merge with run := none } }
    match s.merge.window with
    | [] => stopped
    | r :: _ => if !commitsHeld s && wantsCommit s r then beginCommit s false else stopped

/-! ### The end of an arrival's path (R35, R53) -/

/-- The batch of LOAD_BATCH number `n`. -/
def findBatch (s : State) (n : Nat) : Option Batch := s.batches.find? fun b => b.serial == n

/-- `s` with the batch of the same number replaced. -/
def setBatch (s : State) (b : Batch) : State :=
  { s with batches := s.batches.map fun x => if x.serial = b.serial then b else x }

/-- A batch completes (R53). -/
def completeBatch (s : State) (b : Batch) (full : Bool) : State :=
  let s := { s with batches := s.batches.filter fun x => x.serial != b.serial }
  complete s b.serial (if full then .journalFull else okOr b.clamped) b.taken b.rejected b.late

/-- The path of an arrival ends: its batch goes on, completes with its last record, or is ended by a full journal, and
a commit run starts (R35, R42, R53). -/
def endArrival (s : State) (a : Arrival) (late full : Bool) : State :=
  let s := { s with merge := { s.merge with path := .idle } }
  let s := match findBatch s a.batch with
    | some b =>
      let b := { b with handed := false, late := b.late + bit late }
      if full || decide (b.count ≤ b.taken) then completeBatch s b full else setBatch s b
    | none => s
  startRun s

/-! ### The late list (R37, R48) -/

/-- Whether a key is late: the settled key is present and the key is not above it (R37). -/
def isLate (s : State) (k : Key) : Bool :=
  match s.merge.settled with
  | some q => k.le q
  | none => false

/-- A late arrival is appended to the late list, or dropped from a full one; LATE_RECORDS is raised on the source's
owner, and the path ends when the append's request ends (R48, R170; DEDUCED, log entry 10). -/
def divertLate (s : State) (a : Arrival) : State :=
  let w := a.witness
  if s.merge.late.length < Config.lateCapacity then
    let rec' : LateRecord :=
      { time := w.time, unc := w.unc, device := a.device, state := a.state, origin := w.origin, src := w.src, seq := w.seq,
        flags := w.flags, settled := s.merge.settled.getD w.key }
    let s := { s with merge := { s.merge with late := s.merge.late ++ [rec'], path := .appending a } }
    let s := (s.countSource w.src fun c => { c with late := raise32 c.late 1 }).writeCountsWord
    let s := raiseOn s (s.source w.src).owner .lateRecords
    s.submit .lateWriter [⟨.lateWriter, .d, .lateAppend, true⟩]
  else
    let s := { s with merge := { s.merge with lateDropped := raise32 s.merge.lateDropped 1 } }
    let s := s.countSource w.src fun c => { c with lateDropped := raise32 c.lateDropped 1 }
    endArrival (raiseOn s (s.source w.src).owner .lateRecords) a true false

/-! ### New records (R40, R46, R47) -/

/-- Whether two reports contradict each other within their uncertainties (R40): not capped. -/
def within (t u t' u' : Nat) : Bool := decide (timeDistance t t' ≤ u + u')

/-- Whether a window record is made ambiguous by an arrival, and makes it so (R40). -/
def contradicts (a : Arrival) (r : WindowRecord) : Bool :=
  r.device == a.device && r.state != a.state && within a.witness.time a.witness.unc r.first.time r.first.unc

/-- The device's last committed change (R5). -/
def lastChangeOf (s : State) (d : Nat) : Option LastChange := Sparse.get none s.merge.lastChange d

/-- Whether the journal test flags a new record (R40): it does not compare states. -/
def ambiguousAgainstJournal (s : State) (a : Arrival) : Bool :=
  match lastChangeOf s a.device with
  | some c => within a.witness.time a.witness.unc c.time c.unc
  | none => false

/-- The arrival becomes a new window record with the two ambiguity tests (R40). -/
def placeRecord (s : State) (a : Arrival) : State :=
  let w := s.merge.window
  let amb := w.any (contradicts a) || ambiguousAgainstJournal s a
  let r : WindowRecord := ⟨a.device, a.state, amb, false, a.witness, []⟩
  let w := w.map fun x => if contradicts a x then { x with ambiguous := true } else x
  let s := ({ s with merge := { s.merge with window := insertRecord r w } }).writeCountsWord
  endArrival s a false false

/-- Step 4 of R35 for an arrival that is above the settled key: placed while the window has room; in a full window,
refused on a full journal (R47), set aside behind a checkpoint write (R45), or placed after a forced commit (R46). The
forced counter rises as the forced commit's write begins (DESIGN CHOICE, log entry 30). -/
def placeOrForce (s : State) (a : Arrival) : State :=
  if s.merge.window.length < Config.windowCapacity then placeRecord s a
  else if Config.journalCapacity ≤ s.journal.committed then
    endArrival (s.countSource a.witness.src fun c => { c with rejected := raise32 c.rejected 1 }) a false true
  else if commitsHeld s then { s with merge := { s.merge with waiting := s.merge.waiting ++ [a] } }
  else
    let s := { s with merge := { s.merge with path := .forcing a } }
    let s := match s.merge.window with
      | r :: _ => s.countSource r.first.src fun c => { c with forced := raise32 c.forced 1 }
      | [] => s
    beginCommit s true

/-- The late test and then step 4 (R37, R40, R45): for an arrival resumed, or one whose forced commit has ended. -/
def retestArrival (s : State) (a : Arrival) : State := if isLate s a.witness.key then divertLate s a else placeOrForce s a

/-- A forced commit has ended: where it was a resumed arrival's and has made another checkpoint due, the arrivals still to
be resumed wait until that write ends (R45). -/
def pauseResuming (s : State) : State :=
  { s with merge := { s.merge with paused := s.merge.paused || (checkpointHold s && !s.merge.resuming.isEmpty) } }

/-- The arrival whose forced commit has ended is tested again (R40), the arrivals behind it paused by a new hold (R45). -/
def endForcedCommit (s : State) (a : Arrival) : State :=
  retestArrival (pauseResuming { s with merge := { s.merge with path := .idle } }) a

/-- The arrival joins the record that takes it (R39). -/
def foldArrival (s : State) (a : Arrival) (r : WindowRecord) : State :=
  let (joined, dropped) := joinWitness r a.witness
  let s := { s with merge := { s.merge with window := insertRecord joined (removeRecord r.key s.merge.window) } }
  let s := match dropped with
    | some w => s.countSource w.src fun c => { c with folded := raise32 c.folded 1 }
    | none => s
  endArrival s a false false

/-- The Merge Unit takes an arrival (R35): its arrival order is the count just raised (R33). -/
def takeArrival (s : State) (a : Arrival) : State :=
  let order := holdAt Config.maxArrivalOrder (s.merge.arrivalOrder + 1)
  let s := { s with merge := { s.merge with arrivalOrder := order } }
  let a := { a with witness := { a.witness with order := order } }
  let w := a.witness
  if s.merge.window.any (fun r => holdsWitness r w.src w.seq) then
    endArrival (s.countSource w.src fun c => { c with folded := raise32 c.folded 1 }) a false false
  else if isLate s w.key then divertLate s a
  else match foldTarget a s.merge.window with
    | some r => foldArrival s a r
    | none => placeOrForce s a

/-! ### What the Merge Unit does next -/

/-- Whether an arrival has to wait for the end of the commit whose write is in flight, so that it is tested against what
that commit leaves (R35): one whose key is not above the entry's, one that the record being written could take or that
contradicts it, and a new record for a full window. A duplicate and an arrival already late need no such wait
(DEDUCED, log entry 8). -/
def waitsForWrite (s : State) (a : Arrival) : Bool :=
  match s.merge.writing, s.merge.window with
  | some e, r :: _ =>
    !s.merge.window.any (fun x => holdsWitness x a.witness.src a.witness.seq) && !isLate s a.witness.key &&
      (a.witness.key.le e.key || canTake a r || contradicts a r ||
        (decide (Config.windowCapacity ≤ s.merge.window.length) && (foldTarget a s.merge.window).isNone))
  | _, _ => false

/-- The arrival taken next: the first handed over that need not wait for a commit's write. R19 fixes no order among the
arrivals of different batches that wait while a path is open (DESIGN CHOICE, log entry 26). -/
def nextArrival (s : State) : Option Arrival := s.merge.handed.find? fun a => !waitsForWrite s a

/-- `s` without an arrival among those handed over. -/
def dropHanded (s : State) (a : Arrival) : State :=
  { s with merge := { s.merge with handed := s.merge.handed.erase a } }

/-- The Merge Unit goes on until it waits. While an arrival's path is open it takes no other (R35). After a checkpoint
write it first makes its commit run, then resumes the waiting arrivals in order, also where that run has made another
checkpoint due, and takes no new arrival until all have been resumed (R45): one that meets a full window under the new hold
has been resumed, and waits again. Otherwise it takes the arrivals handed over, while an entry is being written too (R174),
and commits. The commit run before the resuming makes the commits of a flush in progress too, and new arrivals wait with
the arrivals that a resumed one's forced commit leaves waiting (DESIGN CHOICE, log entry 26). The first argument bounds the
arrivals taken (DEDUCED, log entry 8). -/
def advanceMerge : Nat → State → State
  | 0, s => pumpCommits s
  | n + 1, s =>
    if s.merge.path != .idle then pumpCommits s
    else match s.merge.resuming with
      | a :: rest =>
        let s := if s.merge.run.isSome then pumpCommits s else s
        if s.merge.writing.isSome || s.merge.paused then s
        else advanceMerge n (retestArrival { s with merge := { s.merge with resuming := rest } } a)
      | [] => match nextArrival s with
        | none => pumpCommits s
        | some a => advanceMerge n (pumpCommits (takeArrival (dropHanded s a) a))

/-- The Merge Unit takes up whatever it can. -/
def mergeProceeds (s : State) : State := advanceMerge (s.merge.handed.length + s.merge.resuming.length + 1) s

/-- A flush is done when no window record's key is at or below the key it noted, and stops on a full journal (R54).
Flushes that end in one event complete in the order in which they started (DESIGN CHOICE, log entry 25). -/
def endFlushes (s : State) : State :=
  s.merge.flushes.foldl (fun s f =>
    let left := s.merge.flushes.filter fun g => g.serial != f.serial
    if !s.merge.window.any (fun r => r.key.le f.noted) then
      complete { s with merge := { s.merge with flushes := left } } f.serial .ok f.committed 0 0
    else if Config.journalCapacity ≤ s.journal.committed then
      complete { s with merge := { s.merge with flushes := left } } f.serial .journalFull f.committed 0 0
    else s) s

end Sys2Proof.Machine
end

