-- ==== Sys2Proof/Machine/ViewOps.lean ====
section
/-! DEFINITION. What the View Engine and the Pacing Timebase do for a view: delta records and marks (R121 to R125),
stops (R82, R118), frames (R89 to R94), pacing (R107 to R111), publication (R127 to R131), carries (R79) and seeks
(R86, R87). -/

namespace Sys2Proof.Machine

/-! ### Leaving RUNNING or STALLED (R82) -/

/-- The view's formed frame is discarded and its pacing timer cancelled (R82, R110, R173). -/
def discardFrame (s : State) (v : Slot) : State :=
  let s := s.setView v { s.views[v] with frame := none, timer := none, atEdge := false }
  { s with arbiter := s.arbiter.withdrawFrame v }

/-- The view is brought to HELD at the cursor of the last frame applied (R82). -/
def bringToHeld (s : State) (v : Slot) : State :=
  let s := discardFrame s v
  s.setView v { s.views[v] with state := .held }

/-! ### The delta ring (R121, R124) -/

/-- The consumer word of the view's owner port for this slot (R121). -/
def deltaConsumer (s : State) (v : Slot) : Index := s.indexAt (Config.deltaConsumerAddr s.views[v].ctx.owner v)

/-- The distance of slot `v`'s delta ring (R121). -/
def deltaDistance (s : State) (v : Slot) : Nat := Index.distance s.views[v].producer (deltaConsumer s v)

/-- The free space of slot `v`'s delta ring (R121): 0 where the distance exceeds 4,096. -/
def deltaFree (s : State) (v : Slot) : Nat :=
  if Config.deltaEntries < deltaDistance s v then 0 else Config.deltaEntries - deltaDistance s v

/-- An evaluation of the free space: a distance above 4,096 raises RING_INDEX on the owner port (R121). -/
def evaluateRoom (s : State) (v : Slot) : State :=
  if Config.deltaEntries < deltaDistance s v then raiseCause s s.views[v].ctx.owner .ringIndex else s

/-- A record written at the producer index, which is raised by one (R121). -/
def writeDelta (s : State) (v : Slot) (bs : List Byte) : State :=
  let w := s.views[v]
  (s.partWrite (Config.deltaEntry v (w.producer.toNat % Config.deltaEntries)) bs).setView v { w with producer := w.producer + 1 }

/-- A mark: written where a record is free, else counted as lost (R124). -/
def writeMark (s : State) (v : Slot) (bs : List Byte) : State :=
  let room := deltaFree s v
  let s := evaluateRoom s v
  if 1 ≤ room then writeDelta s v bs
  else s.setView v { s.views[v] with lostMarks := holdAt 65535 (s.views[v].lostMarks + 1) }

/-! ### Stops (R118) -/

/-- A STEP in flight ends with its view's stop (R114): frames applied, the cause, the cursor. -/
def endStep (s : State) (v : Slot) (cause : StopCause) : State :=
  let w := s.views[v]
  match w.step with
  | some st =>
    let s := s.setView v { w with step := none, ctx := { w.ctx with budget := 0 } }
    complete s st.serial (okOr st.clamped) st.applied cause.code w.ctx.cursor
  | none => s

/-- Whether a stop raises VIEW_STOPPED (R118). -/
def StopCause.raises : StopCause → Bool
  | .none | .holdCmd | .stepDone => false
  | _ => true

/-- A stop (R118): the view is held, its last stop cause set, a STOP_MARK and then the status record written,
VIEW_STOPPED raised where the cause calls for it, and a STEP in flight completed. -/
def stopView (s : State) (v : Slot) (cause : StopCause) (device : Nat) : State :=
  let s := bringToHeld s v
  let w := s.views[v]
  let s := s.setView v { w with ctx := { w.ctx with
    lastStop := cause, watchDevice := if cause = .watch then device else w.ctx.watchDevice } }
  let s := (writeMark s v (stopMarkBytes cause device)).writeViewStatus v
  let s := if cause.raises then raiseCause s s.views[v].ctx.owner .viewStopped else s
  endStep s v cause

/-! ### Frames (R89, R90, R94) -/

/-- The number of entries a forward frame takes from the view's cursor (R89). -/
def forwardCount (s : State) (c : ViewContext) : Nat :=
  match entriesBetween s c.cursor (windowLimit s c) with
  | [] => 0
  | e :: es => (((e :: es).take Config.frameCapacity).takeWhile fun x => decide (x.time ≤ e.time + c.width)).length

/-- The number of entries a backward frame takes from the view's cursor (R90). -/
def backwardCount (s : State) (c : ViewContext) : Nat :=
  match (entriesBetween s (windowBase s c) c.cursor).reverse with
  | [] => 0
  | e :: es => (((e :: es).take Config.frameCapacity).takeWhile fun x => decide (e.time ≤ x.time + c.width)).length

/-- The number of entries the frame in the view's direction takes. -/
def frameCount (s : State) (c : ViewContext) : Nat :=
  match c.direction with
  | .forward => forwardCount s c
  | .backward => backwardCount s c

/-- The number of entries read to form the frame: for a forward frame the first entry beyond it as well, where one is
committed, be it beyond the window too (R92). -/
def frameNeeds (s : State) (c : ViewContext) : Nat :=
  match c.direction with
  | .forward => min (forwardCount s c + 1) (s.journal.committed - c.cursor)
  | .backward => backwardCount s c

/-- The position of the frame's first entry (R89, R90). -/
def frameStart (c : ViewContext) : Nat :=
  match c.direction with
  | .forward => c.cursor
  | .backward => c.cursor - 1

/-- The frame's entries in the order they are applied (R89, R90). -/
def frameEntries (s : State) (c : ViewContext) (n : Nat) : List Entry :=
  match c.direction with
  | .forward => entriesBetween s c.cursor (c.cursor + n)
  | .backward => (entriesBetween s (c.cursor - n) c.cursor).reverse

/-- Whether a time lies beyond a break time in the running direction (R116). -/
def beyondBreak (d : Direction) (breakTime t : Nat) : Bool :=
  match d with
  | .forward => decide (breakTime < t)
  | .backward => decide (t ≤ breakTime)

/-- Whether the frame's first entry lies beyond the break time, when one is present (R116). -/
def frameBeyond (s : State) (c : ViewContext) : Bool :=
  match c.breakTime with
  | some t => beyondBreak c.direction t (entryAt s (frameStart c)).time
  | none => false

/-- Whether a frame of `n` entries is final (R90, R94). -/
def frameFinal (s : State) (c : ViewContext) (n : Nat) : Bool :=
  match c.direction with
  | .backward => true
  | .forward =>
    let bound := (entryAt s c.cursor).time + c.width
    let bound := match c.windowEnd with
      | some t => min bound t
      | none => bound
    n == Config.frameCapacity || s.journal.state == .sealed || (match s.merge.settled with
      | some k => decide (bound < k.time)
      | none => false)

/-! ### Delays (R107 to R110) -/

/-- The delay of a gap (R108). -/
def delayOf (gap quiet : Nat) (speed : Int) : Nat :=
  let g := min gap quiet
  if 0 ≤ speed then g / 2 ^ speed.toNat else g * 2 ^ (-speed).toNat

/-- The load of a pacing timer for a delay above 0 (R109, R110). -/
def loadTimer (d : Nat) : Countdown :=
  if d ≤ 65535 then ⟨1, d, 0⟩
  else if ceilDiv d 16 ≤ 65535 then ⟨16, ceilDiv d 16, 0⟩
  else if ceilDiv d 256 ≤ 65535 then ⟨256, ceilDiv d 256, 0⟩
  else if ceilDiv d 4096 ≤ 65535 then ⟨4096, ceilDiv d 4096, 0⟩
  else
    let c := ceilDiv d 4096
    ⟨4096, c - 65536 * ((c - 1) / 65536), (c - 1) / 65536⟩

/-! ### The published image (R130, R131) -/

/-- A number put in its place in a rising list without repeats. -/
def insertNumber (n : Nat) : List Nat → List Nat
  | [] => [n]
  | x :: xs => if n < x then n :: x :: xs else if n = x then x :: xs else x :: insertNumber n xs

/-- The bytes of `len` devices of an image from device `d` on, as published (R175). -/
def imageBytes (img : Image) (d len : Nat) : List Byte := (List.range len).map fun i => (img.at (d + i)).encode

/-- The aligned words of the image area with a byte that differs between two images that differ only in the devices
given (R131), in rising address order (DESIGN CHOICE, log entry 19). -/
def changedWords (old new : Image) (devices : List Nat) : List Nat :=
  (devices.foldl (fun ws d => insertNumber (d / 8) ws) []).filter fun w => imageBytes old (8 * w) 8 != imageBytes new (8 * w) 8

/-- The words of slot `v`'s published image area are written whole from an image (R131), each handed over as a write of
its own (DESIGN CHOICE, log entry 19). -/
def writeImageWords (s : State) (v : Slot) (img : Image) (ws : List Nat) : State :=
  ws.foldl (fun s w => s.partWrite (Config.imageAddr v + 8 * w) (imageBytes img (8 * w) 8)) s

/-- The view's frame counter moves on by one and is written alone (R127, R130). -/
def stepCounter (s : State) (v : Slot) : State :=
  let w := s.views[v]
  (s.setView v { w with ctx := { w.ctx with counter := w.ctx.counter + 1 } }).writeCounter v

/-- A revision of the image by a frame or a carry: a published view's changed words are written between the odd and the
even value of the counter; otherwise the counter goes straight to its next even value (R127, R130, R131). -/
def reviseImage (s : State) (v : Slot) (old new : Image) (devices : List Nat) : State :=
  let w := s.views[v]
  if w.ctx.published then stepCounter (writeImageWords (stepCounter s v) v new (changedWords old new devices)) v
  else s.setView v { w with ctx := { w.ctx with counter := w.ctx.counter + 2 } }

/-- A whole-image write of a published view, between the odd and the even value of the counter (R132). -/
def writeWholeImage (s : State) (v : Slot) : State :=
  let s := stepCounter s v
  stepCounter (s.partWrite (Config.imageAddr v) (imageBytes s.dram.viewImages[v] 0 Config.imageDevices)) v

/-! ### Publishing a frame (R117, R123, R125, R127) -/

/-- Whether a CHANGE for an entry passes the view's filter (R125). -/
def passesFilter (s : State) (c : ViewContext) (e : Entry) : Bool :=
  let k := s.catalogueEntry e.device
  (c.ranges.isEmpty || c.ranges.any fun r => decide (r.1 ≤ k.station ∧ k.station ≤ r.2)) && c.kinds.getLsbD k.kind.code

/-- A position of the frame's entry number `i`, in the order applied. -/
def framePosition (c : ViewContext) (i : Nat) : Nat :=
  match c.direction with
  | .forward => c.cursor + i
  | .backward => c.cursor - 1 - i

/-- The CHANGE records of a frame's entries, in the order applied (R123), `frameNumber` being the counter's even value
at the end of the frame. -/
def changeRecords (s : State) (c : ViewContext) (frameNumber : Nat) (es : List Entry) : List (List Byte) :=
  (es.zipIdx.filter fun x => passesFilter s c x.1).map fun x =>
    changeBytes frameNumber (framePosition c x.2) c.direction x.1 (s.catalogueEntry x.1.device)

/-- The cursor time at a cursor (R80). -/
def cursorTimeAt (s : State) (c : ViewContext) (p : Nat) : Nat :=
  if p ≤ windowBase s c then c.windowStart else (entryAt s (p - 1)).time

/-- An entry applied in a direction (R83). -/
def applyEntry (d : Direction) (img : Image) (e : Entry) : Image :=
  match d with
  | .forward => img.applyForward e
  | .backward => img.applyBackward e

/-- The first stop test after a frame that holds (R117): WATCH, AMBIGUOUS, STEP_DONE. -/
def stopAfterFrame (w : View) (es : List Entry) : Option (StopCause × Nat) :=
  match es.find? (fun e => w.ctx.watch.contains e.device && !e.isRepeat) with
  | some e => some (.watch, e.device)
  | none =>
    if w.ctx.stopAmbiguous && es.any (fun e => e.ambiguous) then some (.ambiguous, 0)
    else if w.step.isSome && w.ctx.budget == 0 then some (.stepDone, 0)
    else none

/-- The stop of a view that runs forward at its limit (R93), none where it waits AT_EDGE. -/
def edgeStop (s : State) (c : ViewContext) : Option StopCause :=
  if s.journal.state = .sealed then some (if windowLimit s c = s.journal.committed then .journalEnd else .windowEnd)
  else if windowLimit s c < s.journal.committed then some .windowEnd
  else none

/-- The formation of a frame begins: its class and its gap are fixed, and its first read request is presented (R92,
R107, R170). -/
def beginFrame (s : State) (v : Slot) : State :=
  let w := s.views[v]
  let cls := if w.step.isNone && w.ctx.mode == .paced then RequestClass.a else .b
  let f : Frame := ⟨0, 0, cls, if w.noGap then none else w.lastFrameTime, .reading⟩
  let s := s.setView v { w with frame := some f, noGap := false, atEdge := false }
  s.submit (.view v) [⟨.view v, cls, .frameRead, false⟩]

/-- A RUNNING view forms its next frame, waits AT_EDGE, or is stopped at an edge of its window; while the journal is
REBUILDING it forms none (R92, R93, R103). -/
def formFrame (s : State) (v : Slot) : State :=
  let c := s.views[v].ctx
  if s.journal.state = .rebuilding then s
  else match c.direction with
    | .backward => if windowBase s c < c.cursor then beginFrame s v else stopView s v .windowEnd 0
    | .forward =>
      if c.cursor < windowLimit s c then beginFrame s v
      else match edgeStop s c with
        | some cause => stopView s v cause 0
        | none => (s.setView v { s.views[v] with atEdge := true }).writeViewStatus v

/-- The cursor after a frame of `n` entries (R89, R90). -/
def cursorAfter (c : ViewContext) (n : Nat) : Nat :=
  match c.direction with
  | .forward => c.cursor + n
  | .backward => c.cursor - n

/-- Steps 2 to 5 of publication and what follows them (R127): application, image write, deltas, status record, the stop
tests, and the next frame. The frame's image writes are presented to the arbiter (R170). -/
def applyFrame (s : State) (v : Slot) (f : Frame) : State :=
  let c := s.views[v].ctx
  let es := frameEntries s c f.count
  let old := s.dram.viewImages[v]
  let new := es.foldl (applyEntry c.direction) old
  let records := changeRecords s c (c.counter + 2).toNat es
  let cursor := cursorAfter c f.count
  let s := s.setViewImage v new
  let w := s.views[v]
  let s := s.setView v { w with
    state := .running, frame := none, atEdge := false, timer := none
    lastFrameTime := es.getLast?.map Entry.time
    step := w.step.map fun st => { st with applied := st.applied + 1 }
    ctx := { w.ctx with cursor := cursor, cursorTime := cursorTimeAt s c cursor, budget := w.ctx.budget - 1 } }
  let s := reviseImage s v old new (es.map Entry.device)
  let s := records.foldl (fun s bs => writeDelta s v bs) s
  let s := s.writeViewStatus v
  let s := s.submit (.view v) (requests (.view v) f.cls .frameWrite (transfers f.count Config.blockEntries) false)
  match stopAfterFrame s.views[v] es with
  | some (cause, device) => stopView s v cause device
  | none => formFrame s v

/-- The number of CHANGE records a frame would write: n of R127. -/
def frameRecords (s : State) (c : ViewContext) (f : Frame) : Nat :=
  (frameEntries s c f.count).countP fun e => passesFilter s c e

/-- A released frame meets the room test: it is published, or the view becomes STALLED (R127, R128). -/
def publishFrame (s : State) (v : Slot) (f : Frame) : State :=
  let room := deltaFree s v
  let s := evaluateRoom s v
  if frameRecords s s.views[v].ctx f ≤ room then applyFrame s v f
  else (s.setView v { s.views[v] with state := .stalled, frame := some { f with phase := .stalled }, timer := none }).writeViewStatus v

/-- A frame is released: the break test at its release (R116), then publication. The test is made while the break is
armed, and for a frame during whose delay SET_STOPS changed the break time (DEDUCED, log entry 15). -/
def releaseFrame (s : State) (v : Slot) (f : Frame) : State :=
  let tested := s.views[v].armed == some true || f.phase == .delaying true
  if tested && frameBeyond s s.views[v].ctx then stopView s v .breakTime 0 else publishFrame s v f

/-- The gap of a frame in its view's direction, from the previous frame's last entry (R107). -/
def frameGap (s : State) (c : ViewContext) (since : Nat) : Nat :=
  match c.direction with
  | .forward => (entryAt s (frameStart c)).time - since
  | .backward => since - (entryAt s (frameStart c)).time

/-- The delay of a frame at its hand-over (R107, R108, R111): none for a frame without a gap, of a FLAT view or of a
STEP, nor for one whose formation began so (R106). -/
def frameDelay (s : State) (w : View) (f : Frame) : Nat :=
  if f.cls = .a ∧ w.ctx.mode = .paced ∧ w.step = none then
    match f.gapFrom with
    | some t => delayOf (frameGap s w.ctx t) w.ctx.quiet w.ctx.speed
    | none => 0
  else 0

/-- A final frame is handed to the Pacing Timebase: released at once, or after its delay (R92, R108, R109). -/
def handOver (s : State) (v : Slot) (f : Frame) : State :=
  let w := s.views[v]
  let d := frameDelay s w f
  if d = 0 then releaseFrame s v f
  else s.setView v { w with frame := some { f with phase := .delaying false }, timer := some (loadTimer d) }

/-- The reading of a frame has ended: it is handed over when final, or the view waits AT_EDGE (R92, R94). -/
def frameRead (s : State) (v : Slot) (f : Frame) : State :=
  let c := s.views[v].ctx
  let f := { f with count := frameCount s c }
  if frameFinal s c f.count then handOver (s.setView v { s.views[v] with frame := some f }) v f
  else (s.setView v { s.views[v] with frame := some { f with phase := .atEdge }, atEdge := true }).writeViewStatus v

/-- Whether the break stops the view when the frame's first block has been read (R116). -/
def readStops (s : State) (w : View) (f : Frame) : Bool := f.blocks == 0 && w.armed == some true && frameBeyond s w.ctx

/-- Whether the frame read that holds the channel is the last of its frame. -/
def frameReadEnds (s : State) (v : Slot) : Bool :=
  match s.views[v].frame with
  | some f => f.phase == .reading &&
      (readStops s s.views[v] f || decide (frameNeeds s s.views[v].ctx ≤ Config.blockEntries * (f.blocks + 1)))
  | none => false

/-- A block of a frame's entries has been read: the break arming is decided or tested at the first (R116), the next
block is asked for, or the reading has ended. Where SET_STOPS clears the arming while a frame is being read, that frame
decides it if its first block is still to be read, and the frame after it if not (DESIGN CHOICE, log entry 15). -/
def frameBlockRead (s : State) (v : Slot) : State :=
  let w := s.views[v]
  match w.frame with
  | none => s
  | some f =>
    if readStops s w f then stopView s v .breakTime 0
    else
      let armed := if w.armed = none ∧ f.blocks = 0 then some (w.ctx.breakTime.isSome && !frameBeyond s w.ctx) else w.armed
      let g := { f with blocks := f.blocks + 1 }
      let s := s.setView v { w with frame := some g, armed := armed }
      if frameNeeds s w.ctx ≤ Config.blockEntries * g.blocks then frameRead s v g
      else s.submit (.view v) [⟨.view v, f.cls, .frameRead, false⟩]

/-- A STALLED view's room test is made again (R129): when it passes, the frame is published from step 2. The change to
RUNNING has no status record of its own before that step; the record of step 5 shows it (DESIGN CHOICE, log entry 19). -/
def retryStalled (s : State) (v : Slot) : State :=
  match s.views[v].frame with
  | some f =>
    let room := deltaFree s v
    let s := evaluateRoom s v
    if frameRecords s s.views[v].ctx f ≤ room then applyFrame s v f else s
  | none => s

/-! ### Carries and the edge (R79, R93, R94) -/

/-- A view is carried forward over the entry at its cursor (R79; its two requests: DEDUCED, log entry 12). -/
def carryView (s : State) (v : Slot) : State :=
  let w := s.views[v]
  let e := entryAt s w.ctx.cursor
  let old := s.dram.viewImages[v]
  let new := old.applyForward e
  let s := (s.setViewImage v new).setView v { w with ctx := { w.ctx with
    cursor := w.ctx.cursor + 1, cursorTime := w.ctx.windowStart } }
  let s := (reviseImage s v old new [e.device]).writeViewStatus v
  s.submit (.view v) [⟨.view v, .b, .carry, false⟩, ⟨.view v, .b, .carry, false⟩]

/-- A RUNNING view that waits AT_EDGE re-examines its place (R93, R94): it forms a frame when its limit has risen, is
stopped when the window can no longer grow, takes the new entry into a frame that waits, and goes on when the frame is
final. The new entry joins a waiting frame in the same event as the commit, with no DRAM request of its own
(DESIGN CHOICE, log entry 12). -/
def edgeUpdate (s : State) (v : Slot) : State :=
  let w := s.views[v]
  match w.frame with
  | none =>
    if w.ctx.cursor < windowLimit s w.ctx then
      formFrame ((s.setView v { w with atEdge := false, noGap := true }).writeViewStatus v) v
    else match edgeStop s w.ctx with
      | some cause => stopView s v cause 0
      | none => s
  | some f =>
    let f := { f with count := frameCount s w.ctx }
    if frameFinal s w.ctx f.count then
      handOver ((s.setView v { w with atEdge := false, noGap := true, frame := some f }).writeViewStatus v) v f
    else s.setView v { w with frame := some f }

/-- What the commit of the entry at position `p` does to slot `v` (R79, R93, R94). -/
def viewAtCommit (p : Nat) (s : State) (v : Slot) : State :=
  let w := s.views[v]
  if (w.state = .held ∨ w.state = .running) ∧ w.ctx.cursor = p ∧ (entryAt s p).time < w.ctx.windowStart then carryView s v
  else if w.state = .running ∧ w.atEdge then edgeUpdate s v
  else s

/-- What the commit of the entry at position `p` does to the views, in increasing slot number (DESIGN CHOICE, log
entry 25). -/
def viewsAtCommit (s : State) (p : Nat) : State := (List.finRange 8).foldl (viewAtCommit p) s

/-- What the sealing of the journal does to slot `v` (R93, R94). -/
def viewAtSeal (s : State) (v : Slot) : State :=
  if s.views[v].state = .running ∧ s.views[v].atEdge then edgeUpdate s v else s

/-- A RUNNING view without a frame forms its first when the journal is BUILDING again (R103). -/
def viewAfterRebuild (s : State) (v : Slot) : State :=
  let w := s.views[v]
  if w.state = .running ∧ w.frame = none ∧ w.atEdge = false then formFrame (s.setView v { w with noGap := true }) v else s

/-! ### Seeks (R85 to R88, R99, R100, R104) -/

/-- The checkpoint slot a seek loads, none when it rolls from the view's own image (R86): it rolls when the view counts
as positioned and its image is no farther from the target than the seek base is. -/
def seekRoute (s : State) (k : SeekOp) : Option Nat :=
  let base := seekBase s k.target
  match k.positioned with
  | some q => if timeDistance k.target q ≤ k.target - (s.slot base).pos then none else some base
  | none => some base

/-- A seek's route and checkpoint are chosen in one event, when the seek starts (R86): a load pins its slot. -/
def fixRoute (s : State) (v : Slot) (k : SeekOp) : State :=
  match seekRoute s k with
  | some b => (pin s b).setView v { s.views[v] with
      seek := some { k with phase := .routed (some b), loads := true, start := (s.slot b).pos } }
  | none => s.setView v { s.views[v] with
      seek := some { k with phase := .routed none, loads := false, start := k.positioned.getD 0 } }

/-- The first requests of a seek whose route is chosen: its checkpoint's, or those of its roll (R86, R170). -/
def startRoute (s : State) (v : Slot) : State :=
  match s.views[v].seek with
  | some k => match k.phase with
    | .routed (some b) =>
      (s.setView v { s.views[v] with seek := some { k with phase := .loading b } }).submit (.view v)
        (requests (.view v) .b .seekLoad 16 true)
    | .routed none =>
      (s.setView v { s.views[v] with seek := some { k with phase := .rolling } }).submit (.view v)
        (rollRequests v (timeDistance k.target k.start))
    | _ => s
  | none => s

/-- A seek chooses its route and goes on to it at once (R86). -/
def chooseRoute (s : State) (v : Slot) : State :=
  match s.views[v].seek with
  | some k => startRoute (fixRoute s v k) v
  | none => s

/-- The view is SEEKING with the seek `k`: its status record is written, and the next frame after the seek has no gap
(R85, R107, R133). -/
def enterSeeking (s : State) (v : Slot) (k : SeekOp) : State :=
  let w := s.views[v]
  (s.setView v { w with
    state := .seeking, seek := some k, noGap := true, lastFrameTime := none
    ctx := { w.ctx with budget := 0 } }).writeViewStatus v

/-- The read of the seek's checkpoint has ended (R70): the image is the view's, the pin is released, and the roll begins. -/
def seekLoaded (s : State) (v : Slot) (k : SeekOp) (slot : Nat) : State :=
  let s := (s.setViewImage v (s.slotImage slot))
  let s := releasePin s slot
  let s := s.setView v { s.views[v] with seek := some { k with phase := .rolling } }
  s.submit (.view v) (rollRequests v (k.target - k.start))

/-- Whether the seek of slot `v` has applied its last entry (R87): nothing was to be rolled, or the last transfer of its
roll holds the channel. -/
def seekReached (s : State) (v : Slot) : Bool :=
  match s.views[v].seek with
  | some k => k.phase == .rolling && (k.start == k.target || channelEnds s (.view v) .seekRoll)
  | none => false

/-- The end of a seek up to its command's completion (R87, R132): image, cursor, carries, image write, SEEK_MARK, status
record, HELD. -/
def finishSeek (s : State) (v : Slot) (k : SeekOp) : State :=
  let s := if channelEnds s (.view v) .seekRoll then s.finishTransfer else s
  let s := s.setViewImage v (rollImage s s.dram.viewImages[v] k.start k.target)
  let w := s.views[v]
  let s := s.setView v { w with ctx := { w.ctx with
    cursor := k.target, cursorTime := cursorTimeAt s w.ctx k.target, width := k.newWidth.getD w.ctx.width } }
  let s := (List.range (windowBase s w.ctx - k.target)).foldl (fun s _ => carryView s v) s
  let w := s.views[v]
  let s := if w.ctx.published then writeWholeImage s v
    else s.setView v { w with ctx := { w.ctx with counter := w.ctx.counter + 2 } }
  let s := s.setView v { s.views[v] with state := .held, seek := none }
  (writeMark s v (seekMarkBytes s.views[v].ctx.cursor s.views[v].ctx.cursorTime)).writeViewStatus v

/-- The detail values of a seek's completion (R84, R87, R99). -/
def seekDetails (s : State) (v : Slot) (k : SeekOp) : Nat × Nat × Nat :=
  let c := s.views[v].ctx
  let applied := timeDistance k.start k.target
  match k.kind with
  | .openView => (v.val, c.cursor, windowLimit s c)
  | .resume => (c.cursor, v.val, applied)
  | _ => (c.cursor, bit k.loads, applied)

/-! ### Placing and freeing a view -/

/-- The lowest-numbered FREE slot (R74). -/
def lowestFreeView (s : State) : Option Slot := (List.finRange 8).find? fun v => decide (s.views[v].state = .free)

/-- Slot `v`'s view is being parked: its context's copy is in flight (R98, R174). -/
def parking (s : State) (v : Slot) : Bool := s.copies.any fun j =>
  match j with
  | .park _ w _ => w == v
  | .restore _ => false

/-- A target clamped to a window's base and limit as they stand (R85). -/
def clampTarget (s : State) (c : ViewContext) (p : Nat) : Nat := clampNat (windowBase s c) (windowLimit s c) p

/-- A view with context `c` is placed in a FREE slot: its delta ring starts empty and its lost-mark count is 0 (R122). -/
def placeView (s : State) (v : Slot) (c : ViewContext) : State :=
  s.setView v { ctx := c, producer := s.indexAt (Config.deltaConsumerAddr c.owner v) }

/-- A slot becomes FREE: its status record keeps the producer index alone (R101, R133). -/
def freeView (s : State) (v : Slot) : State :=
  let s := discardFrame s v
  (s.setView v { producer := s.views[v].producer }).writeViewStatus v

end Sys2Proof.Machine
end

