-- ==== Sys2Proof/Machine/JournalOps.lean ====
section
/-! DEFINITION. What the commands' meanings share: the start of a dispatched command (R51, R76, R147), the Merge Unit's
next work with what it completes, SEAL's steps (R55), the end of a truncation (R58), and the catalogue's blocks (R7). -/

namespace Sys2Proof.Machine

/-! ### The start of a dispatched command -/

/-- What `f` does with the command of dispatch number `n`, if it is in flight, of this kind, and not yet started;
nothing otherwise, for the event does not then occur (DESIGN CHOICE, log entry 1). -/
def withCommand (s : State) (n : Nat) (k : CommandKind) (f : PortId → Descriptor → State) : State :=
  match findCommand s n with
  | some (p, c) => if c.descriptor.kind = some k ∧ c.started = false then f p c.descriptor else s
  | none => s

/-- The same for a command that the journal reservation holds back (R51): while a reservation is held it waits. -/
def withJournalCommand (s : State) (n : Nat) (k : CommandKind) (f : PortId → Descriptor → State) : State :=
  withCommand s n k fun p d => if reservationHeld s then s else f p d

/-- The same for a reserving command (R51): it waits until it may start. -/
def withReservingCommand (s : State) (n : Nat) (k : CommandKind) (f : PortId → Descriptor → State) : State :=
  withCommand s n k fun p d => if mayReserve s n then f p d else s

/-- The checks of R76 on a view slot, in order, and the wait while the view is SEEKING. -/
def checkView (s : State) (n : Nat) (p : PortId) (target : Nat) (f : Slot → State) : State :=
  if h : target < 8 then
    let v : Slot := ⟨target, h⟩
    if s.views[v].state = .free then complete s n .badTarget 0 0 0
    else if s.views[v].ctx.owner ≠ p then complete s n .notOwner 0 0 0
    else if s.views[v].state = .seeking then s
    else f v
  else complete s n .badTarget 0 0 0

/-- The checks of R97 on a parked id, in order. -/
def checkParked (s : State) (n : Nat) (p : PortId) (id : Nat) (f : ViewContext → State) : State :=
  if id < Config.parkedEntries then
    match s.parkedEntry id with
    | none => complete s n .badTarget 0 0 0
    | some c => if c.owner ≠ p then complete s n .notOwner 0 0 0 else f c
  else complete s n .badTarget 0 0 0

/-- A view command that the journal reservation does not hold (R51, R76). -/
def withView (s : State) (n : Nat) (k : CommandKind) (f : PortId → Descriptor → Slot → State) : State :=
  withCommand s n k fun p d => checkView s n p d.target (f p d)

/-- A view command that is a seek under the journal reservation (R51, R76). -/
def withSeekingView (s : State) (n : Nat) (k : CommandKind) (f : PortId → Descriptor → Slot → State) : State :=
  withJournalCommand s n k fun p d => checkView s n p d.target (f p d)

/-! ### SEAL (R55) -/

/-- SEAL's second step on the source table: every STREAMING and DEFINED source becomes ENDED (R11, R55). -/
def endAllSources (s : State) : State :=
  { s with sources := s.sources.map fun c =>
      match c.2.state with
      | .streaming | .defined => (c.1, { c.2 with state := .ended })
      | _ => c }

/-- SEAL's window records that a full journal cannot take are discarded, each counted as rejected in its first witness's
source (R55). -/
def discardWindow (s : State) : State :=
  let s' := s.merge.window.foldl (fun s r => s.countSource r.first.src fun c => { c with rejected := raise32 c.rejected 1 }) s
  { s' with merge := { s'.merge with window := [] } }

/-- SEAL's second and third steps and its completion (R55). The views at their edges are treated in increasing slot number
(DESIGN CHOICE, log entry 25). -/
def finishSeal (s : State) (n committed discarded : Nat) (r : Result) : State :=
  let s := endAllSources s
  let s := { s with journal := { s.journal with state := .sealed, reserved := none } }
  let s := s.writeRingWord.writeCountsWord
  let s := (List.finRange 8).foldl viewAtSeal s
  complete s n r committed discarded s.journal.committed

/-- SEAL's first step ends when the window is empty, or on a full journal (R55). -/
def checkSeal (s : State) : State :=
  match s.journal.reserved with
  | some ⟨n, _, .sealing k⟩ =>
    if s.merge.writing.isSome then s
    else if s.merge.window = [] then finishSeal s n k 0 .ok
    else if Config.journalCapacity ≤ s.journal.committed then
      finishSeal (discardWindow s) n k s.merge.window.length .journalFull
    else s
  | _ => s

/-- The Merge Unit takes up whatever it can, and the flushes and the SEAL it has finished complete. -/
def journalProceeds (s : State) : State := checkSeal (endFlushes (mergeProceeds s))

/-! ### The commit of an entry (R44) -/

/-- The journal region with an entry written at a position. -/
def writeEntry (j : List Entry) (p : Nat) (e : Entry) : List Entry := j.take p ++ e :: j.drop (p + 1)

/-- The reserving command's count of commits (R55). An entry whose write was already in flight when SEAL started counts
among those its first step committed (DESIGN CHOICE, log entry 34). -/
def countSealed (r : Reserved) : Reserved :=
  match r.work with
  | .sealing k => { r with work := .sealing (k + 1) }
  | _ => r

/-- The updates of R44 when the write of entry `e` has ended: the entry stands at the committed count, which is raised;
the commit image, the last committed change and the settled key follow it; a checkpoint may fall due; and the views are
carried or re-examine their places (R79, R93, R94). -/
def commitEntry (s : State) (e : Entry) : State :=
  let p := s.journal.committed
  let due := if (p + 1) % s.directory.interval = 0 then some (p + 1) else s.directory.due
  let flushes := s.merge.flushes.map fun f => { f with committed := f.committed + 1 }
  let s := { s with
    dram := { s.dram with journal := writeEntry s.dram.journal p e },
    journal := { s.journal with committed := p + 1, reserved := s.journal.reserved.map countSealed },
    merge := { s.merge with
      window := s.merge.window.drop 1, writing := none, settled := some e.key,
      image := s.merge.image.applyForward e,
      lastChange := Sparse.set none s.merge.lastChange e.device (some ⟨e.time, e.unc, p⟩),
      flushes := flushes },
    directory := { s.directory with due := due } }
  viewsAtCommit s.writeCountsWord.writeSettledWords p

/-! ### FORMAT and LOAD_CATALOGUE (R6 to R8, R56, R72) -/

/-- The reserving command goes on to its next work. -/
def setWork (s : State) (w : ReservedWork) : State :=
  { s with journal := { s.journal with reserved := s.journal.reserved.map fun r => { r with work := w } } }

/-- The directory's part of FORMAT (R72): every slot freed, the interval set, checkpoint 0 written into slot 0. -/
def formatDirectory (s : State) (interval : Nat) : State :=
  let s := freeSlots s fun _ => true
  let s := { s with directory := { s.directory with interval := interval } }
  let s := (s.setSlot 0 { s.slot 0 with state := .writing, pos := 0 }).writeDirectoryWord
  beginCheckpointWrite (setWork s .formatCheckpoint) ⟨0, 0, false⟩

/-- One catalogue load entry is taken (R7): skipped, or written with its device's current committed state. -/
def takeCatalogueLine (s : State) (c : CatalogueLoad) : State × CatalogueLoad :=
  let l := readCatalogueLine s.ring.replica (c.addr + 8 * c.taken)
  let c := { c with taken := c.taken + 1 }
  match DeviceKind.ofCode l.kind with
  | none => (s, { c with skipped := c.skipped + 1 })
  | some k =>
    if s.journal.deviceCount ≤ l.device ∨ 4095 < l.station then (s, { c with skipped := c.skipped + 1 })
    else
      let (st, repaired) := repairState l.initial
      ({ s with
          catalogue := Sparse.set .unlisted s.catalogue l.device ⟨l.station, k, st⟩
          merge := { s.merge with image := s.merge.image.put l.device ⟨st, false⟩ } },
        { c with written := c.written + 1, repaired := c.repaired + bit repaired })

/-- `k` catalogue load entries are taken in staging order (R7). -/
def takeCatalogueLines : Nat → State → CatalogueLoad → State × CatalogueLoad
  | 0, s, c => (s, c)
  | k + 1, s, c => let r := takeCatalogueLine s c; takeCatalogueLines k r.1 r.2

/-- The next block of catalogue load entries is taken, and its write is presented (R7, R170, R174; DEDUCED, log
entry 13). -/
def takeCatalogueBlock (s : State) (c : CatalogueLoad) : State :=
  let r := takeCatalogueLines (min Config.catalogueBlock (c.count - c.taken)) s c
  let s := setWork r.1 (.catalogueLoad r.2)
  s.submit .catalogueWriter [⟨.catalogueWriter, .d, .catalogueWrite, decide (r.2.count ≤ r.2.taken)⟩]

/-! ### TRUNCATE (R57, R58, R71, R103, R104) -/

/-- The directory's part of TRUNCATE and the start of the rebuild's load (R58, R71). -/
def truncateDirectory (s : State) (removed discarded : Nat) : State :=
  let n := s.journal.committed
  let s := (freeSlots s fun x => x.state == .inUse && decide (n < x.pos)).writeDirectoryWord
  let base := seekBase s n
  let s := setWork (pin s base) (.rebuildLoading removed discarded base (s.slot base).pos)
  s.submit .rebuild (requests .rebuild .b .rebuildLoad 16 true)

/-- The latest entry for a device among positions `a` to `b` − 1, as a last committed change (R58). -/
def latestChange (s : State) (d a b : Nat) : Option LastChange :=
  ((entriesBetween s a b).zipIdx a).reverse.findSome? fun x =>
    if x.1.device = d then some ⟨x.1.time, x.1.unc, x.2⟩ else none

/-- A device's last committed change after a rebuild at count `n` from a checkpoint at `base` (R58). -/
def rebuiltChange (s : State) (d : Nat) (c : Option LastChange) (base n : Nat) : Option LastChange :=
  match c with
  | some x => if n ≤ x.pos then latestChange s d base n else some x
  | none => none

/-- The commit image and the settled key rebuilt at the new count (R58). -/
def rebuildCommitImage (s : State) (base : Nat) (loaded : Image) : State :=
  let n := s.journal.committed
  { s with merge := { s.merge with
      image := loaded.rollForward (entriesBetween s base n)
      lastChange := (s.merge.lastChange.map fun c => (c.1, rebuiltChange s c.1 c.2 base n)).filter fun c => c.2.isSome
      settled := if n = 0 then none else some (entryAt s (n - 1)).key } }

/-- A truncated view's seek starts once the commit image has been rebuilt (R104). -/
def startTruncatedSeek (s : State) (v : Slot) : State :=
  match s.views[v].seek with
  | some k => if k.phase = .awaitingRebuild then chooseRoute s v else s
  | none => s

/-- Whether a truncation's own seek is in flight (R104). -/
def truncationSeeks (s : State) : Bool :=
  (List.finRange 8).any fun v => s.views[v].seek.any fun k => k.kind == .truncation

/-- The end of a TRUNCATE (R58): the journal moves to BUILDING, TRUNCATED is raised, the command completes, the window
records left are committed, and RUNNING views form their first frames (R103). -/
def finishTruncate (s : State) (r : Reserved) (removed discarded : Nat) : State :=
  let s := { s with journal := { s.journal with state := .building, reserved := none } }
  let s := raiseOnAll s.writeRingWord .truncated
  let s := complete s r.serial (okOr r.clamped) s.journal.committed removed discarded
  (List.finRange 8).foldl viewAfterRebuild (journalProceeds (startRun s))

/-- The truncation completes when the last of its seeks has ended (R104). -/
def checkTruncate (s : State) : State :=
  match s.journal.reserved with
  | some r => match r.work with
    | .truncateSeeks removed discarded => if truncationSeeks s then s else finishTruncate s r removed discarded
    | _ => s
  | none => s

/-! ### The end of a commit hold (R45) -/

/-- A checkpoint write has ended: the Merge Unit makes its commit run and then resumes the waiting arrivals, in the order
in which they began to wait (R42, R45): those that wait again after having been resumed began before those still to be. -/
def endHold (s : State) : State :=
  let s := startRun s
  journalProceeds { s with merge := { s.merge with
    resuming := s.merge.waiting ++ s.merge.resuming, waiting := [], paused := false } }

/-! ### Readouts (R49, R150, R151) -/

/-- `s` with port `p`'s readout in progress. -/
def setReadout (s : State) (p : PortId) (r : Option Readout) : State := { s with readouts := s.readouts.set p r }

/-- The bytes of the next block of a readout. -/
def readoutBlock (s : State) (r : Readout) (k : Nat) : List Byte :=
  if r.isLate then ((s.merge.late.drop r.copied).take k).flatMap lateBytes
  else (entriesBetween s (r.start + r.copied) (r.start + r.copied + k)).flatMap entryBytes

/-- A block of a readout has been read and is written into the readout area (R150, R170). -/
def copyReadoutBlock (s : State) (p : PortId) : State :=
  match s.readouts[p] with
  | none => s
  | some r =>
    let k := min Config.blockEntries (r.count - r.copied)
    setReadout (s.partWrite (Config.readoutEntry p r.copied) (readoutBlock s r k)) p (some { r with copied := r.copied + k })

/-- A readout of `r.count` records begins: one class D read for each 64 (R170, R174). -/
def beginReadout (s : State) (p : PortId) (r : Readout) : State :=
  let s := setReadout (markStarted s r.serial) p (some r)
  s.submit (.readout p) (requests (.readout p) .d .readout (transfers r.count Config.blockEntries) true)

end Sys2Proof.Machine
end

