-- ==== Sys2Proof/Machine/Views.lean ====
section
/-! DEFINITION. The view commands that place, move, set up and free views, and the ends of seeks and of parked-context
copies (R74 to R105, R106, R115, R126, R132, R170). -/

namespace Sys2Proof.Machine

/-! ### Opening, seeking, returning -/

/-- The end time that means OPEN_END (R175). -/
def openEndCode : Nat := 18446744073709551615

/-- An end time operand, clamped and not below the start; `none` is OPEN_END (R78, R175). -/
def windowEndOf (start asked : Nat) : Option Nat :=
  if asked = openEndCode then none else some (max start (min asked Config.maxTime))

/-- Whether an OPEN_VIEW operand was clamped (R78). -/
def windowClamped (askedStart askedEnd : Nat) : Bool :=
  decide (Config.maxTime < askedStart) ||
    (askedEnd != openEndCode && windowEndOf (min askedStart Config.maxTime) askedEnd != some askedEnd)

/-- The context OPEN_VIEW sets up for port `p` (R75, R78, R84). -/
def openContext (p : PortId) (d : Descriptor) : ViewContext :=
  let start := min (d.field 8 8) Config.maxTime
  { owner := p
    windowStart := start
    windowEnd := windowEndOf start (d.field 16 8)
    cursorTime := start
    width := d.field 24 2 }

/-- OPEN_VIEW's work in the FREE slot it takes (R84, R86, R122). -/
def beginOpen (s : State) (n : Nat) (p : PortId) (d : Descriptor) (v : Slot) : State :=
  let c := openContext p d
  let base := windowBase s c
  let s := placeView (markStarted s n) v { c with cursor := base }
  chooseRoute (enterSeeking s v
    ⟨some n, .openView, base, windowClamped (d.field 8 8) (d.field 16 8), none, none, .rolling, false, 0⟩) v

/-- OPEN_VIEW (R84). -/
def execOpenView (n : Nat) (s : State) : Host.Outcome State Fault Refusal :=
  .next (withJournalCommand s n .openView fun p d =>
    if s.journal.state = .unformatted then complete s n .badState 0 0 0
    else match lowestFreeView s with
      | none => complete s n .noSlot 0 0 0
      | some v => beginOpen s n p d v)

/-- A view that moves is brought to HELD for a seek or a new run; this is no stop (R88, R112). The state passed through
has no status record of its own: the record of the new state follows in the same step (DESIGN CHOICE, log entry 19). -/
def quiet (s : State) (v : Slot) : State :=
  if s.views[v].state = .running ∨ s.views[v].state = .stalled then bringToHeld s v else s

/-- A seek of a positioned view to `asked`, clamped to its window (R85, R86, R88). -/
def beginSeek (s : State) (n : Nat) (v : Slot) (kind : SeekKind) (asked : Nat) (newWidth : Option Nat) : State :=
  let target := clampTarget s s.views[v].ctx asked
  let s := quiet (markStarted s n) v
  let s := enterSeeking s v
    ⟨some n, kind, target, decide (target ≠ asked), newWidth, some s.views[v].ctx.cursor, .rolling, false, 0⟩
  chooseRoute s v

/-- SEEK's target before it is clamped: a position, or the count of entries at or below a time (R85, R175). -/
def seekAsked (s : State) (d : Descriptor) : Nat := if d.select 8 then countUpTo s (d.field 16 8) else d.field 16 8

/-- SEEK (R85). -/
def execSeek (n : Nat) (s : State) : Host.Outcome State Fault Refusal :=
  .next (withSeekingView s n .seek fun _ d v =>
    beginSeek s n v .seek (seekAsked s d) (if d.select 9 then some (d.field 10 2) else none))

/-- A seek's command completes (R84, R87, R99); a truncation's seek has none (R104). -/
def completeSeek (s : State) (v : Slot) (k : SeekOp) : State :=
  match k.serial with
  | some n => let x := seekDetails s v k; complete s n (okOr k.clamped) x.1 x.2.1 x.2.2
  | none => s

/-- SEEK_END (R87): the seek of slot `v` has applied its last entry. -/
def execSeekEnd (v : Slot) (s : State) : Host.Outcome State Fault Refusal :=
  .next (match s.views[v].seek with
  | some k => if seekReached s v then checkTruncate (completeSeek (finishSeek s v k) v k) else s
  | none => s)

/-- RETURN (R96). -/
def execReturn (n : Nat) (s : State) : Host.Outcome State Fault Refusal :=
  .next (withSeekingView s n .returnMark fun _ _ v =>
    match s.views[v].ctx.marks with
    | [] => complete s n .empty 0 0 0
    | m :: rest =>
      let w := s.views[v]
      beginSeek (s.setView v { w with ctx := { w.ctx with marks := rest } }) n v .seek m none)

/-- MARK (R95). -/
def execMark (n : Nat) (s : State) : Host.Outcome State Fault Refusal :=
  .next (withView s n .mark fun _ _ v =>
    let w := s.views[v]
    let marks := (w.ctx.cursor :: w.ctx.marks).take 8
    complete (s.setView v { w with ctx := { w.ctx with marks := marks } }) n .ok w.ctx.cursor marks.length 0)

/-! ### Parking, resuming, exchanging, closing -/

/-- A moving view is stopped with HOLD_CMD (R98, R100, R113). -/
def holdStop (s : State) (v : Slot) : State :=
  if s.views[v].state = .running ∨ s.views[v].state = .stalled then stopView s v .holdCmd 0 else s

/-- A PARK whose copy is in flight is to fill parked entry `i` (R98, R174). -/
def promised (s : State) (i : Nat) : Bool := s.copies.any fun j =>
  match j with
  | .park _ _ k => k == i
  | .restore _ => false

/-- The lowest-numbered empty parked entry (R98): one that a PARK in flight is to fill is passed over (DESIGN CHOICE, log
entry 14). -/
def lowestEmptyParked (s : State) : Option Nat :=
  (List.range Config.parkedEntries).find? fun i => (s.parkedEntry i).isNone && !promised s i

/-- A parked-context copy's requests (R170, R174): one per context. -/
def copyRequests (contexts : Nat) : List Request := requests .contextCopier .d .contextCopy contexts true

/-- A parked-context copy is asked for. -/
def submitCopy (s : State) (j : CopyJob) (contexts : Nat) : State :=
  ({ s with copies := s.copies ++ [j] }).submit .contextCopier (copyRequests contexts)

/-- PARK (R98): the view is brought to HELD and the copy of its context asked for. The slot is not FREE before the copy
has ended (R98, R174; DEDUCED, log entry 14). -/
def execPark (n : Nat) (s : State) : Host.Outcome State Fault Refusal :=
  .next (withView s n .park fun _ _ v =>
    match lowestEmptyParked s with
    | none => complete s n .noSlot 0 0 0
    | some i =>
      submitCopy (holdStop (markStarted s n) v) (.park n v i) 1)

/-- RESUME (R99): the context is placed in a FREE slot, the entry emptied and the seek's route chosen (R86); the seek
goes on when the copy has ended. -/
def execResume (n : Nat) (s : State) : Host.Outcome State Fault Refusal :=
  .next (withJournalCommand s n .resume fun p d =>
    checkParked s n p d.target fun c =>
      match lowestFreeView s with
      | none => complete s n .noSlot 0 0 0
      | some v =>
        let target := clampTarget s c c.cursor
        let s := (placeView (markStarted s n) v c).setParked d.target none
        let k : SeekOp := ⟨some n, .resume, target, decide (target ≠ c.cursor), none, none, .routed none, false, 0⟩
        submitCopy (fixRoute (enterSeeking s v k) v k) (.restore v) 1)

/-- EXCHANGE (R100): the two contexts change places; the slot's image counts as positioned at the cursor of the view set
aside, and the seek's route is chosen (R86). -/
def execExchange (n : Nat) (s : State) : Host.Outcome State Fault Refusal :=
  .next (withSeekingView s n .exchange fun p d v =>
    checkParked s n p d.target2 fun c =>
      let target := clampTarget s c c.cursor
      let s := holdStop (markStarted s n) v
      let w := s.views[v]
      let s := (s.setParked d.target2 (some w.ctx)).setView v { w with ctx := c }
      let k : SeekOp :=
        ⟨some n, .exchange, target, decide (target ≠ c.cursor), none, some w.ctx.cursor, .routed none, false, 0⟩
      submitCopy (fixRoute (enterSeeking s v k) v k) (.restore v) 2)

/-- The end of PARK's copy (R98): the context stands in the parked entry, the slot is freed, and the command completes. -/
def finishPark (s : State) (n : Nat) (v : Slot) (i : Nat) : State :=
  complete (freeView (s.setParked i (some s.views[v].ctx)) v) n .ok i 0 0

/-- What follows a parked-context copy: PARK frees its slot and completes, RESUME and EXCHANGE go on with their seek (R98 to R100, R170). -/
def afterCopy (s : State) (j : CopyJob) : State :=
  match j with
  | .park n v i => finishPark s n v i
  | .restore v => startRoute s v

/-- PARKED_CONTEXT_COPY_END (R170). -/
def execParkedContextCopyEnd (s : State) : Host.Outcome State Fault Refusal :=
  .next (if channelEnds s .contextCopier .contextCopy then
    match s.copies with
    | j :: rest => afterCopy { s.finishTransfer with copies := rest } j
    | [] => s
  else s)

/-- CLOSE_VIEW (R101). -/
def execCloseView (n : Nat) (s : State) : Host.Outcome State Fault Refusal :=
  .next (withView s n .closeView fun _ _ v => complete (freeView s v) n .ok 0 0 0)

/-! ### Settings -/

/-- SET_PACE (R106). -/
def execSetPace (n : Nat) (s : State) : Host.Outcome State Fault Refusal :=
  .next (withView s n .setPace fun _ d v =>
    let askedSpeed := signedOf 8 (d.field 9 1)
    let askedQuiet := d.field 12 4
    let speed := clampInt (-6) 6 askedSpeed
    let quietLimit := clampNat 1000 60000000 askedQuiet
    let w := s.views[v]
    let s := s.setView v { w with ctx := { w.ctx with
      mode := paceModeOf (d.select 8), speed := speed, quiet := quietLimit } }
    complete s n (okOr (decide (speed ≠ askedSpeed ∨ quietLimit ≠ askedQuiet))) 0 0 0)

/-- A list with each number kept once, at its first place (R115). -/
def keepOnce (xs : List Nat) : List Nat := xs.foldl (fun kept x => if kept.contains x then kept else kept ++ [x]) []

/-- The frame being delayed knows that SET_STOPS has changed the break time (R116). -/
def Frame.breakChanged (f : Frame) : Frame :=
  match f.phase with
  | .delaying _ => { f with phase := .delaying true }
  | _ => f

/-- SET_STOPS (R115). A device number that the catalogue does not have counts as left out each time it is named
(DESIGN CHOICE, log entry 16). -/
def execSetStops (n : Nat) (s : State) : Host.Outcome State Fault Refusal :=
  .next (withView s n .setStops fun p d v =>
    let b := readStopBlock s.ring.replica (stagingAddr p (blockPosition 48 d.position))
    let named := b.devices.take (min b.watchCount 16)
    let valid := named.filter fun x => decide (x < s.journal.deviceCount)
    let watch := keepOnce valid
    let breakTime := if b.breakPresent then some (min b.breakTime Config.maxTime) else none
    let clamped := blockMoved 48 d.position || decide (16 < b.watchCount) ||
      (b.breakPresent && decide (Config.maxTime < b.breakTime)) || decide (watch.length < named.length)
    let w := s.views[v]
    let s := s.setView v { w with
      armed := if breakTime = w.ctx.breakTime then w.armed else none
      frame := if breakTime = w.ctx.breakTime then w.frame else w.frame.map Frame.breakChanged
      ctx := { w.ctx with breakTime := breakTime, watch := watch, stopAmbiguous := b.stopAmbiguous } }
    complete s n (okOr clamped) watch.length (named.length - valid.length) 0)

/-- A filter range with its station numbers clamped (R126). -/
def clampRange (r : Nat × Nat) : Nat × Nat := (min r.1 4095, min r.2 4095)

/-- SET_FILTER (R126): the new filter, and the room test of a STALLED frame made again (R129). A block read from the last
position of the staging area is CLAMPED only where one of the three checks on its contents changed it. -/
def execSetFilter (n : Nat) (s : State) : Host.Outcome State Fault Refusal :=
  .next (withView s n .setFilter fun p d v =>
    let b := readFilterBlock s.ring.replica (stagingAddr p (blockPosition 40 d.position))
    let named := b.ranges.take (min b.rangeCount 8)
    let ranges := (named.map clampRange).filter fun r => decide (r.1 ≤ r.2)
    let clamped := decide (8 < b.rangeCount) || named.map clampRange != named ||
      decide (ranges.length < named.length)
    let w := s.views[v]
    let s := s.setView v { w with ctx := { w.ctx with ranges := ranges, kinds := b.kinds } }
    let s := complete s n (okOr clamped) ranges.length (named.length - ranges.length) 0
    if s.views[v].state = .stalled then retryStalled s v else s)

/-- PUBLISH (R132). -/
def execPublish (n : Nat) (s : State) : Host.Outcome State Fault Refusal :=
  .next (withView s n .publish fun _ d v =>
    let w := s.views[v]
    let on := d.select 8
    let s := s.setView v { w with ctx := { w.ctx with published := on } }
    let s := (if on then writeWholeImage s v else s).writeViewStatus v
    complete s n .ok s.views[v].ctx.counter.toNat 0 0)

end Sys2Proof.Machine
end

