-- ==== Sys2Proof/Machine/Pacing.lean ====
section
/-! DEFINITION. Motion and the Pacing Timebase: RUN, HOLD and STEP, the end of a frame's reading, the pacing timers, and
the microsecond tick of the timebase (R92, R109 to R114). -/

namespace Sys2Proof.Machine

/-! ### RUN, HOLD, STEP -/

/-- The view becomes RUNNING in a new run: the break arming is clear, and the first frame has no gap (R107, R112, R114,
R116). -/
def startMotion (s : State) (v : Slot) (c : ViewContext) (st : Option StepOp) : State :=
  let w := s.views[v]
  (s.setView v { w with
    state := .running, ctx := c, armed := none, noGap := true, lastFrameTime := none, step := st }).writeViewStatus v

/-- RUN (R112). The direction as a detail value is 0 for FORWARD and 1 for BACKWARD (DEDUCED, log entry 28). -/
def execRun (n : Nat) (s : State) : Host.Outcome State Fault Refusal :=
  .next (withView s n .run fun _ d v =>
    if s.ring.up = false then complete s n .badState 0 0 0
    else
      let s := quiet s v
      let c := s.views[v].ctx
      let dir := directionOf (d.select 8)
      let s := startMotion s v { c with direction := dir, mode := paceModeOf (d.select 9), budget := 0 } none
      formFrame (complete s n .ok c.cursor dir.code 0) v)

/-- HOLD (R113). -/
def execHold (n : Nat) (s : State) : Host.Outcome State Fault Refusal :=
  .next (withView s n .hold fun _ _ v =>
    let moving := decide (s.views[v].state = .running ∨ s.views[v].state = .stalled)
    let s := holdStop s v
    complete s n .ok s.views[v].ctx.cursor (bit moving) 0)

/-- STEP (R114): the command completes when its view is HELD. -/
def execStep (n : Nat) (s : State) : Host.Outcome State Fault Refusal :=
  .next (withView s n .step fun _ d v =>
    if s.ring.up = false then complete s n .badState 0 0 0
    else
      let asked := d.field 8 2
      let s := quiet (markStarted s n) v
      let c := { s.views[v].ctx with direction := directionOf (d.select 10), budget := max 1 asked }
      formFrame (startMotion s v c (some ⟨n, 0, asked == 0⟩)) v)

/-! ### Frames and timers -/

/-- Slot `v`'s frame read holds the channel. -/
def frameReadGranted (s : State) (v : Slot) : Bool :=
  match s.arbiter.channel with
  | some r => r.who == .view v && r.kind == .frameRead
  | none => false

/-- FRAME_READ_END (R92): the last read of slot `v`'s frame has ended. -/
def execFrameReadEnd (v : Slot) (s : State) : Host.Outcome State Fault Refusal :=
  .next (if frameReadGranted s v && frameReadEnds s v then frameBlockRead s.finishTransfer v else s)

/-- A segment's count has reached 0 and reload segments remain (R110). -/
def reloadTimer (s : State) (v : Slot) (t : Countdown) : State :=
  s.setView v { s.views[v] with timer := some { t with count := 65536, segments := t.segments - 1 } }

/-- The last segment's count has reached 0: the timer is IDLE, and its frame is released (R110). -/
def expireTimer (s : State) (v : Slot) : State :=
  let s := s.setView v { s.views[v] with timer := none }
  match s.views[v].frame with
  | some f => releaseFrame s v f
  | none => s

/-- A timer after one more microsecond, the timebase's counter then at `now`: a pulse of its tap lowers its count
(R109). -/
def Countdown.pulse (now : Nat) (t : Countdown) : Countdown :=
  if now % t.tap = 0 then { t with count := t.count - 1 } else t

/-- The timebase's counter advances, and every counting timer meets the pulse of its tap (R109). -/
def pulse (s : State) : State :=
  let now := s.timebase + 1
  { s with timebase := now, views := s.views.map fun w => { w with timer := w.timer.map (Countdown.pulse now) } }

/-- The end of slot `v`'s segment, in the event in which its count reaches 0 (R110). -/
def endSegment (s : State) (v : Slot) : State :=
  match s.views[v].timer with
  | some t => if t.count = 0 then (if t.segments = 0 then expireTimer s v else reloadTimer s v t) else s
  | none => s

/-- One microsecond of the Pacing Timebase (R109). Timers of several slots that end a segment in it are taken in
increasing slot number (DESIGN CHOICE, log entry 25). -/
def tick (s : State) : State := (List.finRange 8).foldl endSegment (pulse s)

/-- Slot `v`'s count reaches 0 in the microsecond that comes, with `f` of the reload segments left (R110). -/
def segmentEnds (s : State) (v : Slot) (f : Nat → Bool) : Bool :=
  match s.views[v].timer with
  | some t => decide ((t.pulse (s.timebase + 1)).count = 0) && f t.segments
  | none => false

/-- TIMER_SEGMENT_RELOAD (R110): the microsecond in which slot `v`'s count reaches 0 and reload segments remain
(DESIGN CHOICE, log entry 3). -/
def execTimerSegmentReload (v : Slot) (s : State) : Host.Outcome State Fault Refusal :=
  .next (if segmentEnds s v fun k => k != 0 then tick s else s)

/-- PACING_TIMER_EXPIRY (R110): the microsecond in which slot `v`'s count reaches 0 and no reload segment remains
(DESIGN CHOICE, log entry 3). -/
def execPacingTimerExpiry (v : Slot) (s : State) : Host.Outcome State Fault Refusal :=
  .next (if segmentEnds s v fun k => k == 0 then tick s else s)

end Sys2Proof.Machine
end

