-- ==== Sys2Proof/Machine/Channel.lean ====
section
/-! DEFINITION. The Journal Memory Arbiter's grant (R170 to R173). -/

namespace Sys2Proof.Machine

/-- The classes from the highest priority to the lowest (R171). -/
def classOrder : List RequestClass := [.a, .b, .c, .d]

/-- A class with a waiting request. -/
def Arbiter.hasWaiting (a : Arbiter) (k : RequestClass) : Bool := !(a.ofClass k).isEmpty

/-- The class the next grant goes to (R171). -/
def Arbiter.chosenClass (a : Arbiter) : Option RequestClass :=
  match classOrder.find? (fun k => a.hasWaiting k && decide (Config.agedCount ≤ a.age k)) with
  | some k => some k
  | none => classOrder.find? fun k => a.hasWaiting k

/-- The numbers after `turn` in a round of `size`, `turn` last. -/
def turnOrder (size turn : Nat) : List Nat := (List.range size).map fun i => (turn + 1 + i) % size

/-- A class B requester's place in the order: slots 0 to 7, then the rebuild reader (R172). A class A requester is a
slot. -/
def Requester.place : Requester → Option Nat
  | .view v => some v.val
  | .rebuild => some 8
  | _ => none

/-- The waiting request of class `k` whose place comes first after the turn (R172). -/
def Arbiter.byTurn (a : Arbiter) (k : RequestClass) (size turn : Nat) : Option Request :=
  (turnOrder size turn).findSome? fun i => (a.ofClass k).find? fun r => r.who.place == some i

/-- The request granted next (R172): by turn in classes A and B, the longest waiting in classes C and D. -/
def Arbiter.chosen (a : Arbiter) : Option Request :=
  match a.chosenClass with
  | some .a => a.byTurn .a 8 a.turnA
  | some .b => a.byTurn .b 9 a.turnB
  | some k => (a.ofClass k).head?
  | none => none

/-- The ageing count of class `k` after a grant to class `g` (R171). -/
def Arbiter.agedBy (a : Arbiter) (g k : RequestClass) : Nat :=
  if k = g then 0 else if a.hasWaiting k then a.age k + 1 else a.age k

/-- The channel is granted to request `r`. -/
def Arbiter.give (a : Arbiter) (r : Request) : Arbiter :=
  Arbiter.clearAges { a with
    waiting := a.waiting.erase r
    channel := some r
    ageA := a.agedBy r.cls .a
    ageB := a.agedBy r.cls .b
    ageC := a.agedBy r.cls .c
    ageD := a.agedBy r.cls .d
    turnA := if r.cls = .a then r.who.place.getD a.turnA else a.turnA
    turnB := if r.cls = .b then r.who.place.getD a.turnB else a.turnB }

/-- The grant made on a free channel, if a request waits (R171). -/
def Arbiter.grant (a : Arbiter) : Arbiter :=
  match a.chosen with
  | some r => a.give r
  | none => a

/-- The end of the request on the channel is a row of the table: the last request of its series, or of its frame's
reading. -/
def endIsAStep (s : State) (r : Request) : Bool :=
  r.last || match r.who, r.kind with
    | .view v, .frameRead => frameReadEnds s v
    | _, _ => false

/-- What the end of a request inside its series does: a frame's block has been read (R92), a readout's block is copied
(R170), the next catalogue entries are taken (R7). -/
def afterTransfer (s : State) (r : Request) : State :=
  match r.who, r.kind with
  | .view v, .frameRead => frameBlockRead s v
  | .readout p, .readout => copyReadoutBlock s p
  | .catalogueWriter, .catalogueWrite =>
    match s.journal.reserved with
    | some x => match x.work with
      | .catalogueLoad c => takeCatalogueBlock s c
      | _ => s
    | none => s
  | _, _ => s

/-- The state in which the next grant is made: a transfer inside its series has ended by then (DESIGN CHOICE, log
entry 11). -/
def endTransfer (s : State) : State :=
  match s.arbiter.channel with
  | some r => afterTransfer s.finishTransfer r
  | none => s

/-- DRAM_GRANT (R171). While the channel holds a request whose end is a step of its own, no grant is made. R171 makes a
grant as a transfer ends, or as the first request is presented on a free channel; here a grant is made when the queue
gives the row, so a request presented in between takes part in the choice (DESIGN CHOICE, log entry 11). -/
def execDramGrant (s : State) : Host.Outcome State Fault Refusal :=
  .next (if s.arbiter.channel.any (endIsAStep s) then s
  else
    let s := endTransfer s
    { s with arbiter := (Arbiter.clearAges s.arbiter).grant })

end Sys2Proof.Machine
end

