-- ==== Sys2Proof/Machine/Checkpoints.lean ====
section
/-! DEFINITION. The steps of the Checkpoint Directory: the start and the end of a checkpoint write, and the end of a
checkpoint load (R58, R64 to R72). -/

namespace Sys2Proof.Machine

/-- Thinning (R66): the slots at odd multiples of the interval are freed and the interval is doubled. -/
def thin (s : State) : State :=
  let i := s.directory.interval
  let s := freeSlots s fun x => x.state == .inUse && x.pos / i % 2 == 1
  ({ s with directory := { s.directory with interval := 2 * i } }).writeDirectoryWord

/-- CHECKPOINT_WRITE_START (R64 to R66): a due checkpoint takes the lowest FREE unpinned slot, with thinning first where
1,024 slots are IN_USE; while every FREE slot is pinned the write waits, until a load's end releases a slot. -/
def execCheckpointWriteStart (s : State) : Host.Outcome State Fault Refusal :=
  .next (match s.directory.due, s.directory.write with
  | some q, none =>
    takeFreeSlot (if checkpointCount s = Config.checkpointSlots then thin s else s) q
  | _, _ => s)

/-- The slot of a checkpoint write that has ended holds a checkpoint: the commit image, at the position written (R64). -/
def endCheckpointWrite (s : State) (w : CheckpointWrite) : State :=
  let s := s.finishTransfer
  let s := (s.setSlotImage w.slot s.merge.image).setSlot w.slot { s.slot w.slot with state := .inUse, pos := w.pos }
  let s := { s with directory := { s.directory with write := none } }
  if w.rewrites then s else s.writeDirectoryWord

/-- What a reserving command that waited for the write does at its end (R8, R56, R71, R72). -/
def afterCheckpointWrite (s : State) : State :=
  match s.journal.reserved with
  | none => s
  | some r =>
    match r.work with
    | .formatDirectory i => formatDirectory s i
    | .formatCheckpoint =>
      let s := ({ s with journal := { s.journal with state := .building, reserved := none } }).writeRingWord
      complete (raiseOnAll s .truncated) r.serial (okOr r.clamped) 0 0 0
    | .catalogueCheckpoint c =>
      let s := { s with journal := { s.journal with reserved := none } }
      complete s r.serial (okOr r.clamped) c.written c.skipped c.repaired
    | .truncateDirectory removed discarded => truncateDirectory s removed discarded
    | _ => s

/-- CHECKPOINT_WRITE_END (R64): the slot becomes IN_USE, the hold ends, a commit run starts and waiting arrivals resume
(R45). -/
def execCheckpointWriteEnd (s : State) : Host.Outcome State Fault Refusal :=
  .next (match s.directory.write with
  | some w =>
    if channelEnds s .checkpointWriter .checkpointWrite then
      let s := afterCheckpointWrite (endCheckpointWrite s w)
      if checkpointHold s then s else endHold s
    else s
  | none => s)

/-- The read of the truncation rebuild's checkpoint has ended: the pin is released and the roll begins (R58, R70). -/
def rebuildLoaded (s : State) : State :=
  match s.journal.reserved with
  | some r => match r.work with
    | .rebuildLoading removed discarded slot base =>
      let s := s.finishTransfer
      let s := setWork (releasePin s slot) (.rebuildRolling removed discarded base (s.slotImage slot))
      s.submit .rebuild (requests .rebuild .b .rebuildRoll (transfers (s.journal.committed - base) Config.blockEntries) true)
    | _ => s
  | none => s

/-- CHECKPOINT_LOAD_END (R70): a load's read of its slot has ended, its pin is released, and a write that waits for
the slot begins (R65). -/
def execCheckpointLoadEnd (l : Loader) (s : State) : Host.Outcome State Fault Refusal :=
  .next (match l with
  | .rebuild => if channelEnds s .rebuild .rebuildLoad then rebuildLoaded s else s
  | .view v =>
    if channelEnds s (.view v) .seekLoad then
      match s.views[v].seek with
      | some k => match k.phase with
        | .loading slot => seekLoaded s.finishTransfer v k slot
        | _ => s
      | none => s
    else s)

end Sys2Proof.Machine
end

