-- ==== Sys2Proof/Machine/JournalCommands.lean ====
section
/-! DEFINITION. The journal-wide commands and the steps of the ingest path: FORMAT, LOAD_CATALOGUE, LOAD_BATCH and its
records, commits, FLUSH, SEAL and TRUNCATE (R6 to R8, R19 to R60). -/

namespace Sys2Proof.Machine

/-- FORMAT's changes (R56): the journal is emptied, the sources, the late list and the parked contexts are discarded, the
catalogue is set up, and its writes are presented. -/
def formatChanges (s : State) (r : Reserved) (count interval slack : Nat) : State :=
  let s := { s with
    journal := { state := .rebuilding, committed := 0, slack := slack, deviceCount := count,
                 reserved := some { r with work := .formatCatalogue interval } }
    merge := Merge.reset
    sources := []
    batches := []
    parked := []
    catalogue := [] }
  let s := s.writeRingWord.writeCountsWord.writeSettledWords
  s.submit .catalogueWriter (requests .catalogueWriter .d .catalogueWrite (transfers count Config.catalogueBlock) true)

/-- FORMAT starts with every view slot FREE (R56): the journal moves to REBUILDING, and its other changes follow at once,
or at the end of the write of an entry that is in flight (DEDUCED, log entry 9). -/
def beginFormat (s : State) (n : Nat) (d : Descriptor) : State :=
  let count := clampNat 1 Config.imageDevices (d.field 8 2)
  let interval := clampInterval (d.field 10 2)
  let slack := clampNat 0 Config.maxSlack (d.field 12 4)
  let r : Reserved := ⟨n, decide (count ≠ d.field 8 2 ∨ interval ≠ d.field 10 2 ∨ slack ≠ d.field 12 4),
    .formatCommit count interval slack⟩
  let s := markStarted s n
  if s.merge.writing.isNone then formatChanges s r count interval slack
  else ({ s with journal := { s.journal with state := .rebuilding, reserved := some r } }).writeRingWord

/-- FORMAT (R56). -/
def execFormat (n : Nat) (s : State) : Host.Outcome State Fault Refusal :=
  .next (withReservingCommand s n .format fun _ d =>
    if s.views.all (fun w => w.state == .free) then beginFormat s n d else complete s n .viewsOpen 0 0 0)

/-- LOAD_CATALOGUE's entry count within the staging area (R7). -/
def catalogueFits (pos : Nat) : Nat := (Config.stagingBytes - 8 * pos) / 8

/-- LOAD_CATALOGUE (R7). -/
def execLoadCatalogue (n : Nat) (s : State) : Host.Outcome State Fault Refusal :=
  .next (withReservingCommand s n .loadCatalogue fun p d =>
    let asked := d.field 12 2
    let count := min (min asked 4096) (catalogueFits d.position)
    if s.journal.state ≠ .building ∨ s.journal.committed ≠ 0 ∨ s.merge.window ≠ [] ∨
        s.views.all (fun w => w.state == .free) = false then
      complete s n .badState 0 0 0
    else if count = 0 then complete s n .empty 0 0 0
    else
      let c : CatalogueLoad := ⟨stagingAddr p d.position, count, 0, 0, 0, 0⟩
      let s := markStarted s n
      let s := { s with journal := { s.journal with reserved := some ⟨n, decide (count < asked), .catalogueLoad c⟩ } }
      takeCatalogueBlock s c)

/-- CATALOGUE_WRITE_END (R8, R72): the last catalogue entry has been written; checkpoint 0 is rewritten for
LOAD_CATALOGUE, and written for FORMAT once no checkpoint write is in flight. -/
def execCatalogueWriteEnd (s : State) : Host.Outcome State Fault Refusal :=
  .next (if channelEnds s .catalogueWriter .catalogueWrite then
    let s := s.finishTransfer
    match s.journal.reserved with
    | some r => match r.work with
      | .catalogueLoad c => beginCheckpointWrite (setWork s (.catalogueCheckpoint c)) ⟨0, 0, true⟩
      | .formatCatalogue i => if checkpointHold s then setWork s (.formatDirectory i) else formatDirectory s i
      | _ => s
    | none => s
  else s)

/-- The records of a batch: the count of its header, reduced to 256 and to the whole records in the staging area (R52). -/
def batchCount (pos asked : Nat) : Nat := min (min asked 256) ((Config.stagingBytes - (8 * pos + 16)) / 16)

/-- LOAD_BATCH (R52): the checks in order, and the hand-over to the Alignment Unit. -/
def execLoadBatch (n : Nat) (s : State) : Host.Outcome State Fault Refusal :=
  .next (withJournalCommand s n .loadBatch fun p d =>
    let header := stagingAddr p d.position
    let src := s.source d.target
    let asked := readField s.ring.replica (header + 2) 2
    let count := batchCount d.position asked
    if s.journal.state ≠ .building then complete s n .badState 0 0 0
    else if 255 < d.target then complete s n .badTarget 0 0 0
    else if Config.stagingBytes < 8 * d.position + 16 then complete s n .badTarget 0 0 0
    else if readField s.ring.replica header 2 ≠ d.target then complete s n .badTarget 0 0 0
    else if src.owner = none then complete s n .badState 0 0 0
    else if src.owner ≠ some p then complete s n .sourceOwned 0 0 0
    else if src.state ≠ .defined ∧ src.state ≠ .streaming then complete s n .badState 0 0 0
    else if count = 0 then complete s n .empty 0 0 0
    else { markStarted s n with batches := s.batches ++ [⟨n, p, d.target, header + 16, count, decide (count < asked), 0, 0, 0, false⟩] })

/-- The aligned record of a raw record, as handed to the Merge Unit (R23, R31). -/
def arrivalOf (b : Batch) (src : Source) (r : RawRecord) (t : Aligned) : Arrival :=
  { batch := b.serial
    device := r.device
    state := (repairState r.state).1
    witness :=
      { src := b.source, seq := r.seq, time := t.time, unc := t.unc
        flags := { gap := decide (src.nextSeq < r.seq), seqBack := decide (r.seq < src.nextSeq), clamped := t.clamped,
                   codeFixed := (repairState r.state).2 }
        origin := Origin.ofCode r.origin
        order := 0 } }

/-- ALIGN_RECORD (R20): the steps of R20 on the batch's next raw record. -/
def execAlignRecord (n : Nat) (s : State) : Host.Outcome State Fault Refusal :=
  .next (match findBatch s n with
  | none => s
  | some b =>
    if b.handed || decide (b.count ≤ b.taken) then s
    else
      let r := readRaw s.ring.replica (b.addr + 16 * b.taken)
      let src := s.source b.source
      let started := if src.state = .defined then { src with state := .streaming } else src
      let checked := sequenceCheck started r.seq
      let b := { b with taken := b.taken + 1 }
      if s.journal.deviceCount ≤ r.device then
        let b := { b with rejected := b.rejected + 1 }
        let s := s.setSource b.source { checked with counters := { checked.counters with rejected := raise32 checked.counters.rejected 1 } }
        if b.count ≤ b.taken then completeBatch s b false else setBatch s b
      else
        let t := align src.params r.raw
        let s := s.setSource b.source { checked with
          maxTime := seenTime checked.maxTime t.time
          counters := { checked.counters with loaded := raise32 checked.counters.loaded 1 } }
        let s := setBatch s { b with handed := true }
        journalProceeds { s with merge := { s.merge with handed := s.merge.handed ++ [arrivalOf b src r t] } })

/-- LATE_APPEND_END (R48): the late arrival's path ends. -/
def execLateAppendEnd (s : State) : Host.Outcome State Fault Refusal :=
  .next (if channelEnds s .lateWriter .lateAppend then
    match s.merge.path with
    | .appending a => journalProceeds (endArrival s.finishTransfer a true false)
    | _ => s.finishTransfer
  else s)

/-- FLUSH (R54). -/
def execFlush (n : Nat) (s : State) : Host.Outcome State Fault Refusal :=
  .next (withJournalCommand s n .flush fun _ _ =>
    if s.journal.state ≠ .building then complete s n .badState 0 0 0
    else match s.merge.window.getLast? with
      | none => complete s n .ok 0 0 0
      | some r =>
        let s := markStarted s n
        journalProceeds { s with merge := { s.merge with flushes := s.merge.flushes ++ [⟨n, r.key, 0⟩] } })

/-- SEAL (R55). -/
def execSeal (n : Nat) (s : State) : Host.Outcome State Fault Refusal :=
  .next (withReservingCommand s n .seal fun _ _ =>
    if s.journal.state ≠ .building then complete s n .badState 0 0 0
    else
      let s := markStarted s n
      journalProceeds { s with journal := { s.journal with reserved := some ⟨n, false, .sealing 0⟩ } })

/-- Step 1 of TRUNCATE at a view: a moving view is stopped with TRUNCATED (R103). -/
def truncateStops (s : State) (v : Slot) : State :=
  if s.views[v].state = .running ∨ s.views[v].state = .stalled then stopView s v .truncated 0 else s

/-- Step 2 of TRUNCATE at a view: one whose cursor lies above its new limit moves to SEEKING with that limit as its
target, and is stopped with TRUNCATED unless step 1 stopped it and it has not moved since (R103). A view that is being
parked counts as parked (R97, R105; DESIGN CHOICE, log entry 14). -/
def truncateSeeks (stopped : List Slot) (s : State) (v : Slot) : State :=
  let c := s.views[v].ctx
  if s.views[v].state ≠ .free ∧ s.views[v].state ≠ .seeking ∧ parking s v = false ∧ windowLimit s c < c.cursor then
    let target := windowLimit s c
    let s := if stopped.contains v && s.views[v].state == .held then s else stopView s v .truncated 0
    enterSeeking s v ⟨none, .truncation, target, false, none, some c.cursor, .awaitingRebuild, false, 0⟩
  else s

/-- Step 4 of TRUNCATE: every STREAMING source becomes DEFINED with its max_time_seen absent (R57). -/
def truncateSources (s : State) : State :=
  { s with sources := s.sources.map fun c =>
      if c.2.state = .streaming then (c.1, { c.2 with state := .defined, maxTime := none }) else c }

/-- Steps 2 to 5 of TRUNCATE at study time `t` (R57, R71, R103). -/
def truncateSteps (s : State) (r : Reserved) (t : Nat) (stopped : List Slot) : State :=
  let count := countUpTo s t
  let removed := s.journal.committed - count
  let s := { s with journal := { s.journal with committed := count } }
  let s := (List.finRange 8).foldl (truncateSeeks stopped) s
  let kept := s.merge.window.filter fun x => decide (x.first.time ≤ t)
  let discarded := s.merge.window.length - kept.length
  let s := ({ s with merge := { s.merge with window := kept } }).writeCountsWord
  let s := truncateSources s
  let s := { s with journal := { s.journal with reserved := some { r with work := .truncateDirectory removed discarded } } }
  if checkpointHold s then s else truncateDirectory s removed discarded

/-- The views that move, in increasing slot number. -/
def movingViews (s : State) : List Slot :=
  (List.finRange 8).filter fun v => s.views[v].state == .running || s.views[v].state == .stalled

/-- TRUNCATE starts at study time `t` (R57): step 1, and the steps after it at once, or at the end of the write of an
entry that is in flight (DEDUCED, log entry 9). The views are treated in increasing slot number (R103; DESIGN CHOICE, log
entry 25). -/
def beginTruncate (s : State) (n t : Nat) (clamped : Bool) : State :=
  let stopped := movingViews s
  let r : Reserved := ⟨n, clamped, .truncateCommit t stopped⟩
  let s := markStarted s n
  let s := ({ s with journal := { s.journal with state := .rebuilding, reserved := some r } }).writeRingWord
  let s := (List.finRange 8).foldl truncateStops s
  if s.merge.writing.isNone then truncateSteps s r t stopped else s

/-- TRUNCATE (R57). -/
def execTruncate (n : Nat) (s : State) : Host.Outcome State Fault Refusal :=
  .next (withReservingCommand s n .truncate fun _ d =>
    let t := d.field 8 8
    if s.journal.state ≠ .building ∧ s.journal.state ≠ .sealed then complete s n .badState 0 0 0
    else beginTruncate s n (min t Config.maxTime) (decide (Config.maxTime < t)))

/-- What a started FORMAT or TRUNCATE that waited for the write of an entry does at its end (R56, R57). -/
def reservedAfterCommit (s : State) : State :=
  match s.journal.reserved with
  | some r => match r.work with
    | .formatCommit count interval slack => formatChanges s r count interval slack
    | .truncateCommit t stopped => truncateSteps s r t stopped
    | _ => s
  | none => s

/-- COMMIT_WRITE_END (R44): the updates of R44, then the arrival that forced the commit is tested again (R40), and the
Merge Unit goes on; a FORMAT or a TRUNCATE that has started and waited for the write goes on too. -/
def execCommitWriteEnd (s : State) : Host.Outcome State Fault Refusal :=
  .next (match s.merge.writing with
  | some e =>
    if channelEnds s .commitWriter .commitWrite then
      let s := commitEntry s.finishTransfer e
      match s.merge.path with
      | .forcing a => journalProceeds (endForcedCommit s a)
      | _ => reservedAfterCommit (journalProceeds s)
    else s
  | none => s)

/-- TRUNCATE_REBUILD_END (R58, R104): the commit image has been rebuilt; the truncated views' seeks start, or the
truncation completes. -/
def execTruncateRebuildEnd (s : State) : Host.Outcome State Fault Refusal :=
  .next (match s.journal.reserved with
  | some r => match r.work with
    | .rebuildRolling removed discarded base loaded =>
      if base = s.journal.committed ∨ channelEnds s .rebuild .rebuildRoll = true then
        let s := if channelEnds s .rebuild .rebuildRoll then s.finishTransfer else s
        let s := (rebuildCommitImage s base loaded).writeSettledWords
        let s := setWork s (.truncateSeeks removed discarded)
        checkTruncate ((List.finRange 8).foldl startTruncatedSeek s)
      else s
    | _ => s
  | none => s)

end Sys2Proof.Machine
end

