-- ==== Sys2Proof/Machine/Readouts.lean ====
section
/-! DEFINITION. The readout commands READ_LATE and READ_ENTRIES and the end of their copies (R49, R150, R151). -/

namespace Sys2Proof.Machine

/-- READ_LATE (R49): one is served at a time. -/
def execReadLate (n : Nat) (s : State) : Host.Outcome State Fault Refusal :=
  .next (withJournalCommand s n .readLate fun p d =>
    if s.readouts.any (fun r => r.any fun r => r.isLate) then s
    else
      let asked := d.field 8 2
      let count := min (min asked Config.readoutEntries) s.merge.late.length
      if count = 0 then complete s n .empty 0 0 0
      else beginReadout s p ⟨n, true, 0, count, 0, d.select 10, decide (Config.readoutEntries < asked)⟩)

/-- READ_ENTRIES (R151). -/
def execReadEntries (n : Nat) (s : State) : Host.Outcome State Fault Refusal :=
  .next (withJournalCommand s n .readEntries fun p d =>
    let asked := d.field 12 2
    let k := s.journal.committed
    let count := min (min asked Config.readoutEntries) (k - d.position)
    if s.journal.state = .unformatted then complete s n .badState 0 0 0
    else if count = 0 then complete s n .empty 0 0 0
    else beginReadout s p ⟨n, false, d.position, count, 0, false, decide (count < asked)⟩)

/-- A readout completes (R49, R151): READ_LATE with its remove flag set removes the records copied. -/
def finishReadout (s : State) (p : PortId) (r : Readout) : State :=
  let s := setReadout s p none
  if r.isLate then
    let s := if r.remove then ({ s with merge := { s.merge with late := s.merge.late.drop r.count } }).writeCountsWord else s
    complete s r.serial (okOr r.clamped) r.count s.merge.late.length s.merge.lateDropped
  else complete s r.serial (okOr r.clamped) r.count r.start s.journal.committed

/-- READOUT_COPY_END (R150). -/
def execReadoutCopyEnd (p : PortId) (s : State) : Host.Outcome State Fault Refusal :=
  .next (if channelEnds s (.readout p) .readout then
    match s.readouts[p] with
    | some r => finishReadout (copyReadoutBlock s.finishTransfer p) p r
    | none => s
  else s)

end Sys2Proof.Machine
end

