-- ==== Sys2Proof/Machine/Ports.lean ====
section
/-! DEFINITION. The Port Controller: ATTACH and DETACH, fetching, dispatch, and the attention commands (R135 to R147,
R161, R164, R165). -/

namespace Sys2Proof.Machine

/-! ### Reading the producer word (R141, R143) -/

/-- The port's record is rewritten when a field it shows has changed (R139, R140; DEDUCED, log entry 19). -/
def refreshPort (s : State) (p : PortId) : State :=
  if s.bytesAt (Config.portStatusAddr p) 24 = portStatusBytes s p then s else s.writePortStatus p

/-- The command producer word of port `p`. -/
def producerWord (s : State) (p : PortId) : Index := s.indexAt (Config.producerAddr p)

/-- The distance of port `p`'s command ring: d of R141. -/
def producerDistance (s : State) (p : PortId) : Nat := Index.distance (producerWord s p) s.ports[p].head

/-- The port is HALTED at the producer value it has read, and RING_INDEX is raised (R141, R143). -/
def haltPort (s : State) (p : PortId) : State :=
  let s := s.setPort p { s.ports[p] with halted := true, haltValue := producerWord s p, look := false }
  raiseCause (s.writePortStatus p) p .ringIndex

/-- A HALTED port's fresh reading of its producer word (R143). -/
def freshReading (s : State) (p : PortId) : State :=
  if Config.ringEntries < producerDistance s p then haltPort s p
  else refreshPort (s.setPort p { s.ports[p] with halted := false, look := true }) p

/-- A KICK, or the loss of one, at port `p` (R141, R143, R161). -/
def lookAt (s : State) (p : PortId) : State :=
  if s.ports[p].halted then freshReading s p else refreshPort (s.setPort p { s.ports[p] with look := true }) p

/-! ### Attention (R161, R164) -/

/-- The gate of port `p` is set ARMED. -/
def armGate (s : State) (p : PortId) : State := refreshPort (s.setPort p { s.ports[p] with fired := false }) p

/-- A REARM at port `p` (R164). -/
def rearmPort (s : State) (p : PortId) : State :=
  let s := armGate s p
  if s.ports[p].causes = 0 then s else fireGate s p

/-! ### ATTACH (R135, R136) -/

/-- The weight an ATTACH datum asks for, clamped (R135, R175). -/
def attachWeight (datum : BitVec 32) : Nat := clampWeight (datum.toNat % 256)

/-- The prefetch depth an ATTACH datum asks for, clamped (R135, R175). -/
def attachDepth (datum : BitVec 32) : Nat := clampDepth (datum.toNat / 256 % 256)

/-- The lowest-numbered free port (R135). -/
def lowestFreePort (s : State) : Option PortId := (List.finRange 8).find? fun p => s.ports[p].bound.isNone

/-- Port `p` is bound to node `n` (R136). -/
def bindPort (s : State) (p : PortId) (n : Node) (weight depth : Nat) : State :=
  let s := s.setPort p { bound := some n, weight := weight, depth := depth, head := producerWord s p,
                         produced := s.indexAt (Config.consumerAddr p) }
  (s.writePortStatus p).writeBinding p

/-- The weight and depth of a bound port are updated (R135). -/
def updateBinding (s : State) (p : PortId) (weight depth : Nat) : State :=
  let x := s.ports[p]
  let x := if x.depth ≤ depth then { x with weight := weight, depth := depth, pendingDepth := none }
    else { x with weight := weight, pendingDepth := some depth }
  applyPendingDepth (((s.setPort p x).writePortStatus p).writeBinding p) p

/-- ATTACH (R135): the oldest notice of the ATTACH queue is taken. -/
def execAttach (s : State) : Host.Outcome State Fault Refusal :=
  .next (match s.ring.attachQueue with
  | [] => s
  | q :: rest =>
    let s := { s with ring := { s.ring with attachQueue := rest } }
    match portOf s q.sender with
    | some p => updateBinding s p (attachWeight q.datum) (attachDepth q.datum)
    | none => match lowestFreePort s with
      | some p => bindPort s p q.sender (attachWeight q.datum) (attachDepth q.datum)
      | none => ({ s with ring := { s.ring with lastRefused := some q.sender } }).writeRingWord)

/-! ### DETACH (R137, R138) -/

/-- A view is live and owned by port `p`. -/
def ownsView (s : State) (p : PortId) (v : Slot) : Bool := s.views[v].state != .free && s.views[v].ctx.owner == p

/-- The start of port `p`'s detach (R137): with its buffer emptied, a pending depth may take effect (R135). -/
def startDetach (s : State) (p : PortId) : State :=
  let x := s.ports[p]
  let s := s.setPort p { x with
    detaching := true, look := false, halted := false, buffer := [], causes := 0, fired := false }
  applyPendingDepth ((s.writePortStatus p).writeBinding p) p

/-- A detaching port's STEP that its view has begun ends at once (R119). -/
def endSteps (p : PortId) (s : State) (v : Slot) : State :=
  if s.views[v].step.isSome && s.views[v].ctx.owner == p then stopView s v .holdCmd 0 else s

/-- The view a descriptor names that port `p` owns and that is not SEEKING. -/
def ownedView (s : State) (p : PortId) (d : Descriptor) : Option Slot :=
  (List.finRange 8).find? fun v => decide (v.val = d.target) && ownsView s p v && s.views[v].state != .seeking

/-- A detaching port's STEP that was dispatched and has not begun ends at once too (R119, R147): its view is brought to
HELD with HOLD_CMD, but for one that is SEEKING, whose seek goes on (DEDUCED, log entry 18). -/
def endWaitingStep (p : PortId) (s : State) (c : InFlight) : State :=
  if c.descriptor.kind = some .step then
    let s := match ownedView s p c.descriptor with
      | some v => stopView s v .holdCmd 0
      | none => s
    complete s c.serial .ok 0 0 0
  else s

/-- The STEPs of a detaching port end (R119): those that have begun in increasing slot number, then those that wait
(DESIGN CHOICE, log entry 25). -/
def endPortSteps (s : State) (p : PortId) : State :=
  let s := (List.finRange 8).foldl (endSteps p) s
  s.ports[p].inFlight.foldl (endWaitingStep p) s

/-- DETACH (R137): the oldest notice of the DETACH queue is taken. -/
def execDetach (s : State) : Host.Outcome State Fault Refusal :=
  .next (match s.ring.detachQueue with
  | [] => s
  | q :: rest =>
    let s := { s with ring := { s.ring with detachQueue := rest } }
    match portOf s q.sender with
    | some p => endPortSteps (startDetach s p) p
    | none => s)

/-- Port `p`'s detach can end: its last in-flight command has ended, and none of its views is SEEKING (R81, R138;
DEDUCED, log entry 18). -/
def detachDone (s : State) (p : PortId) : Bool :=
  s.ports[p].detaching && s.ports[p].inFlight.isEmpty &&
    (List.finRange 8).all fun v => !(ownsView s p v && s.views[v].state == .seeking)

/-- A view of the detached port is closed (R102). -/
def closeOwned (p : PortId) (s : State) (v : Slot) : State := if ownsView s p v then freeView s v else s

/-- The parked entries of the detached port are emptied (R102). -/
def emptyParked (s : State) (p : PortId) : State :=
  { s with parked := s.parked.filter fun c => !c.2.any fun x => x.owner == p }

/-- A source of the detached port: unowned, and ENDED if it was STREAMING (R11, R138). -/
def Source.detached (x : Source) (p : PortId) : Source :=
  if x.owner = some p then { x with owner := none, state := if x.state = .streaming then .ended else x.state } else x

/-- The sources of the detached port, in the table's canonical form. -/
def releaseSources (s : State) (p : PortId) : State :=
  { s with sources := (s.sources.map fun c => (c.1, c.2.detached p)).filter fun c => c.2 != {} }

/-- DETACH_END (R138). -/
def execDetachEnd (p : PortId) (s : State) : Host.Outcome State Fault Refusal :=
  .next (if detachDone s p then
    let s := emptyParked ((List.finRange 8).foldl (closeOwned p) s) p
    let s := releaseSources s p
    let s := s.setPort p { head := s.ports[p].head, produced := s.ports[p].produced }
    journalProceeds (startRun ((s.writePortStatus p).writeBinding p))
  else s)

/-! ### KICK, REARM, FETCH -/

/-- KICK (R141): the oldest notice of the KICK queue is taken. -/
def execKick (s : State) : Host.Outcome State Fault Refusal :=
  .next (match s.ring.kickQueue with
  | [] => s
  | q :: rest =>
    let s := { s with ring := { s.ring with kickQueue := rest } }
    match portOf s q.sender with
    | some p => lookAt s p
    | none => s)

/-- REARM (R164): the oldest notice of the REARM queue is taken. -/
def execRearm (s : State) : Host.Outcome State Fault Refusal :=
  .next (match s.ring.rearmQueue with
  | [] => s
  | q :: rest =>
    let s := { s with ring := { s.ring with rearmQueue := rest } }
    match portOf s q.sender with
    | some p => rearmPort s p
    | none => s)

/-- The descriptor in command ring entry `i` of port `p`, as the local replica holds it (R142). -/
def descriptorAt (s : State) (p : PortId) (i : Index) : Descriptor :=
  ⟨s.bytesAt (Config.commandEntry p (i.toNat % Config.ringEntries)) 32⟩

/-- The descriptors of the `k` entries from index `i` on. -/
def descriptorsFrom (s : State) (p : PortId) (i : Index) (k : Nat) : List Descriptor :=
  (List.range k).map fun j => descriptorAt s p (i + BitVec.ofNat 16 j)

/-- Port `p` fetches (R141). -/
def fetchPort (s : State) (p : PortId) : State :=
  let x := s.ports[p]
  let d := producerDistance s p
  if Config.ringEntries < d then haltPort s p
  else
    let k := min d (x.depth - x.buffer.length)
    (s.setPort p { x with
      buffer := x.buffer ++ descriptorsFrom s p x.head k
      head := x.head + BitVec.ofNat 16 k
      look := decide (k < d) }).writePortStatus p

/-- A port makes a fetch when it is bound and not detaching, marked to look, not HALTED, and its buffer has room
(R141). -/
def mayFetch (s : State) (p : PortId) : Bool :=
  let x := s.ports[p]
  x.bound.isSome && !x.detaching && x.look && !x.halted && decide (x.buffer.length < x.depth)

/-- FETCH (R141). -/
def execFetch (p : PortId) (s : State) : Host.Outcome State Fault Refusal :=
  .next (if mayFetch s p then fetchPort s p else s)

/-! ### DISPATCH (R144, R146, R147) -/

/-- The dispatcher considers a port that is bound, not detaching, has an eligible command and an in-flight place. -/
def considered (s : State) (p : PortId) : Bool :=
  let x := s.ports[p]
  x.bound.isSome && !x.detaching && x.eligible.isSome && decide (x.inFlight.length < x.depth)

/-- A candidate for dispatch (R146). -/
def isCandidate (s : State) (p : PortId) : Bool := considered s p && freeCompletions s p != 0

/-- An evaluation of a port's free completion slots raises RING_INDEX on a bad distance (R144). -/
def evaluateCompletions (s : State) (p : PortId) : State :=
  if Config.ringEntries < unconsumed s p then raiseCause s p .ringIndex else s

/-- The evaluations the dispatcher makes when it considers the ports (R144), in increasing port number (DESIGN CHOICE,
log entry 25). -/
def evaluateCandidates (s : State) : State :=
  (List.finRange 8).foldl (fun s p => if considered s p then evaluateCompletions s p else s) s

/-- The port that dispatches next, and its count in the turn (R146). -/
def nextDispatch (s : State) : Option (PortId × Nat) :=
  let t := s.dispatcher.turn
  if isCandidate s t && decide (s.dispatcher.count < s.ports[t].weight) then some (t, s.dispatcher.count + 1)
  else (((List.finRange 8).map fun i => t + 1 + i).find? (isCandidate s)).map fun p => (p, 1)

/-- The oldest eligible command of port `p` is dispatched (R145, R147). -/
def dispatchFrom (s : State) (p : PortId) (count : Nat) : State :=
  match s.ports[p].eligible with
  | none => s
  | some (d, rest) =>
    let n := s.dispatcher.nextSerial
    let x := s.ports[p]
    let s := s.setPort p { x with buffer := rest, inFlight := x.inFlight ++ [⟨n, d, false⟩] }
    let s := { s with dispatcher := { turn := p, count := count, nextSerial := n + 1 } }
    let s := applyPendingDepth (s.writePortStatus p) p
    if d.kind.isNone then complete s n .unknownCommand 0 0 0 else s

/-- DISPATCH (R146). -/
def execDispatch (s : State) : Host.Outcome State Fault Refusal :=
  .next (
    let s := evaluateCandidates s
    match nextDispatch s with
    | some (p, count) => dispatchFrom s p count
    | none => s)

/-! ### CLEAR_CAUSES (R165) -/

/-- The completion records a node has not consumed are rewritten as the local replica holds them (R165). -/
def rewriteCompletions (s : State) (p : PortId) (count : Nat) : State :=
  (List.range count).foldl (fun s i =>
    let a := Config.completionEntry p ((s.indexAt (Config.consumerAddr p) + BitVec.ofNat 16 i).toNat % Config.ringEntries)
    s.partWrite a (s.bytesAt a 32)) s

/-- CLEAR_CAUSES (R165): the causes, the loss flags in the part status page, the port status record, the completion
records and the whole page, handed over in that order. The second detail value is 0 for ARMED and 1 for FIRED (DESIGN
CHOICE, log entry 28). A RING_INDEX that step 4 raises may fire the gate, and the detail values show the causes and the gate
after it (DESIGN CHOICE, log entry 31). -/
def execClearCauses (n : Nat) (s : State) : Host.Outcome State Fault Refusal :=
  .next (withCommand s n .clearCauses fun p d =>
    let named := byte (d.field 8 1) &&& causeBits
    let s := s.setPort p { s.ports[p] with causes := s.ports[p].causes &&& ~~~named }
    let s := if hasCause named .noticeLost then { s with ring := { s.ring with lossFlags := 0 } }.writeRingWord else s
    let s := s.writePortStatus p
    let u := unconsumed s p
    let count := if Config.ringEntries < u then 0 else u
    let s := if Config.ringEntries < u then raiseCause s p .ringIndex else rewriteCompletions s p count
    let s := s.writePartPage
    complete s n .ok s.ports[p].causes.toNat (bit s.ports[p].fired) count)

end Sys2Proof.Machine
end

