-- ==== Sys2Proof/Machine/RingInterface.lean ====
section
/-! DEFINITION. The Ring Interface: reset, signal and sync, arriving packets, the transmitter, and ring loss
(R153 to R168). -/

namespace Sys2Proof.Machine

/-! ### Reset, signal, sync (R166, R167) -/

/-- The ring size found from the straps (R166). -/
def strappedSize (sizeStraps : BitVec 6) : Nat := clampNat 2 32 sizeStraps.toNat

/-- RESET (R166): every block returns to its reset state with the straps sampled; the stacked DRAM is not cleared
(R169). The signal is absent until SIGNAL_GAINED (DESIGN CHOICE, log entry 4). -/
def execReset (nodeStraps : BitVec 5) (sizeStraps : BitVec 6) (s : State) : Host.Outcome State Fault Refusal :=
  .next { State.reset with
    pending := s.pending
    ring := { Ring.reset with node := ⟨nodeStraps.toNat, nodeStraps.isLt⟩, size := strappedSize sizeStraps }
    dram := s.dram }

/-- The strapped node number lies within the ring: the part sends (R166). -/
def nodeInRing (s : State) : Bool := decide (s.ring.node.val < s.ring.size)

/-- The part sends a sync packet and waits for it to come back (R166). -/
def sendSync (s : State) : State :=
  { s with ring := { s.ring with own := s.ring.own ++ [.sync s.ring.node 0], syncWaiting := true } }

/-- SIGNAL_GAINED (R166). -/
def execSignalGained (s : State) : Host.Outcome State Fault Refusal :=
  .next (if s.ring.signal then s
  else
    let s := { s with ring := { s.ring with signal := true } }
    if !s.ring.up && nodeInRing s then sendSync s else s)

/-- SYNC_TIMEOUT (R166): 1 ms has passed without the sync packet's return. -/
def execSyncTimeout (s : State) : Host.Outcome State Fault Refusal :=
  .next (if !s.ring.up && s.ring.signal && s.ring.syncWaiting && nodeInRing s then sendSync s else s)

/-- At ring loss a RUNNING or STALLED view is stopped with RING_DOWN (R119). -/
def stopAtLoss (s : State) (v : Slot) : State :=
  if s.views[v].state = .running ∨ s.views[v].state = .stalled then stopView s v .ringDown 0 else s

/-- The ring moves to DOWN (R167). The moving views are stopped in increasing slot number (DESIGN CHOICE, log
entry 25). -/
def ringDown (s : State) : State :=
  let s := ({ s with ring := { s.ring with up := false, own := [], syncWaiting := false } }).writeRingWord
  (List.finRange 8).foldl stopAtLoss s

/-- SIGNAL_LOSS (R166, R167). -/
def execSignalLoss (s : State) : Host.Outcome State Fault Refusal :=
  .next (
    let s := { s with ring := { s.ring with signal := false } }
    if s.ring.up then ringDown s else { s with ring := { s.ring with syncWaiting := false } })

/-- The ring moves to UP (R168). -/
def ringUp (s : State) : State :=
  let s := { s with ring := { s.ring with up := true, syncWaiting := false } }
  raiseOnAll s.writeRingWord.writePartPage .ringRestored

/-! ### Ring writes (R157) -/

/-- The port in whose region an address below 8 MiB lies. -/
def regionPort (a : Nat) : PortId := Fin.ofNat 8 (a / 0x100000)

/-- The checks on a ring write (R157). A write of at most 256 bytes touches the pages of its first and last bytes. -/
def writeAllowed (s : State) (sender : Node) (a len : Nat) : Bool :=
  a % 8 == 0 && len % 8 == 0 && decide (8 ≤ len ∧ len ≤ 256) && decide (a + len ≤ Config.replicaBytes) &&
    pageOwner s a == .node sender && pageOwner s (a + len - 1) == .node sender

/-- A ring write has arrived at the delta consumer word of slot `v` in port `p`'s control page (R122, R129). -/
def deltaConsumerWritten (s : State) (p : PortId) (v : Slot) : State :=
  if ownsView s p v then
    if s.views[v].state = .stalled then retryStalled s v else evaluateRoom s v
  else s

/-- What the word at address `a`, just written, is told to its owning block as (R157). -/
def wordWritten (s : State) (a : Nat) : State :=
  let p := regionPort a
  let o := a % 0x100000
  if o = 0x2000 then (if s.ports[p].halted then freshReading s p else s)
  else if o = 0x2008 then refreshPort (evaluateCompletions s p) p
  else if 0x2010 ≤ o ∧ o < 0x2050 then deltaConsumerWritten s p (Fin.ofNat 8 ((o - 0x2010) / 8))
  else s

/-- A ring write from another node is checked, and applied or discarded whole (R157). Once every word stands, the watched
ones are told in increasing address order (DEDUCED, log entry 20). A write to the old region of a node that is bound anew
is BAD_WRITE on its new port (DESIGN CHOICE, log entry 29). -/
def ringWrite (s : State) (sender : Node) (a : Nat) (data : List Byte) : State :=
  if writeAllowed s sender a data.length then
    let s := { s with ring := { s.ring with replica := replicaWrite s.ring.replica a data } }
    (List.range (data.length / 8)).foldl (fun s i => wordWritten s (a + 8 * i)) s
  else raiseOn s (portOf s sender) .badWrite

/-! ### Notices (R160, R161) -/

/-- Appended at the tail of a queue with room (R160). -/
def appendNotice (q : List QueuedNotice) (x : QueuedNotice) : List QueuedNotice := q ++ [x]

/-- A queue already holds 64 notices. -/
def queueFull (q : List QueuedNotice) : Bool := decide (Config.queueCapacity ≤ q.length)

/-- A notice is lost to a full queue (R161): its flag, then at each bound port the recovery and NOTICE_LOST. -/
def noticeLost (s : State) (flag : Nat) (recovery : State → PortId → State) : State :=
  let s := ({ s with ring := { s.ring with lossFlags := s.ring.lossFlags ||| BitVec.ofNat 4 (2 ^ flag) } }).writeRingWord
  (boundPorts s).foldl (fun s p => raiseCause (recovery s p) p .noticeLost) s

/-- A notice addressed to the part (R156, R160). -/
def takeNotice (s : State) (type : NoticeType) (x : QueuedNotice) : State :=
  match type with
  | .attach =>
    if queueFull s.ring.attachQueue then noticeLost s 0 (fun s _ => s)
    else { s with ring := { s.ring with attachQueue := appendNotice s.ring.attachQueue x } }
  | .detach =>
    if queueFull s.ring.detachQueue then noticeLost s 1 (fun s _ => s)
    else { s with ring := { s.ring with detachQueue := appendNotice s.ring.detachQueue x } }
  | .kick =>
    if queueFull s.ring.kickQueue then noticeLost s 2 lookAt
    else { s with ring := { s.ring with kickQueue := appendNotice s.ring.kickQueue x } }
  | .rearm =>
    if queueFull s.ring.rearmQueue then noticeLost s 3 armGate
    else { s with ring := { s.ring with rearmQueue := appendNotice s.ring.rearmQueue x } }
  | .completion => s
  | .attention => s

/-! ### Packets (R155, R156, R158) -/

/-- A packet's sender. -/
def packetSender : Packet → Node
  | .write n _ _ _ => n
  | .notice n _ _ _ _ => n
  | .sync n _ => n

/-- A packet's hop count. -/
def packetHops : Packet → Nat
  | .write _ _ _ h => h
  | .notice _ _ _ _ h => h
  | .sync _ h => h

/-- A packet with its hop count raised by one. -/
def packetForwarded : Packet → Packet
  | .write n a d h => .write n a d (h + 1)
  | .notice n t k d h => .notice n t k d (h + 1)
  | .sync n h => .sync n (h + 1)

/-- A packet of the part's own has come round the ring (R156, R166). -/
def ownReturned (s : State) (p : Packet) : State :=
  match p with
  | .sync _ _ => if !s.ring.up && nodeInRing s then ringUp s else s
  | _ => s

/-- Another node's packet is acted on while the ring is UP (R156). -/
def actOn (s : State) (p : Packet) : State :=
  match p with
  | .write n a d _ => ringWrite s n a d
  | .notice n t k d _ => if t = s.ring.node then takeNotice s k ⟨n, d⟩ else s
  | .sync _ _ => s

/-- PACKET_ARRIVAL (R156): the first of its cases that applies. -/
def execPacketArrival (p : Packet) (s : State) : Host.Outcome State Fault Refusal :=
  .next (if packetSender p = s.ring.node then ownReturned s p
  else if s.ring.size - 1 ≤ packetHops p then s
  else
    let s := { s with ring := { s.ring with forward := s.ring.forward ++ [packetForwarded p] } }
    if s.ring.up then actOn s p else s)

/-- TRANSMIT_PACKET (R158): one of the two parties' packets in turn when both wait (the first turn: DESIGN CHOICE, log
entry 22). -/
def execTransmitPacket (s : State) : Host.Outcome State Fault Refusal :=
  .next (match s.ring.own, s.ring.forward with
  | [], [] => s
  | x :: own, [] => { s with ring := { s.ring with own := own, sent := some x, lastOwn := true } }
  | [], y :: fwd => { s with ring := { s.ring with forward := fwd, sent := some y, lastOwn := false } }
  | x :: own, y :: fwd =>
    if s.ring.lastOwn then { s with ring := { s.ring with forward := fwd, sent := some y, lastOwn := false } }
    else { s with ring := { s.ring with own := own, sent := some x, lastOwn := true } })

end Sys2Proof.Machine
end

