-- ==== Sys2Proof/Machine/Sources.lean ====
section
/-! DEFINITION. The source commands (R11 to R18) and QUERY_SOURCE (R152). -/

namespace Sys2Proof.Machine

/-- The checks of R12 on a source command, in order; `takes` says which states take it (R11). R12's order holds for
DEFINE_SOURCE of another port's STREAMING source too, which is SOURCE_OWNED, where R13 says BAD_STATE whichever port owns
it (DEDUCED, log entry 32). -/
def checkSource (s : State) (n : Nat) (p : PortId) (i : Nat) (takes : SourceState → Bool) (f : Source → State) : State :=
  let src := s.source i
  if s.journal.state = .unformatted then complete s n .badState 0 0 0
  else if 255 < i then complete s n .badTarget 0 0 0
  else if src.owner.isSome ∧ src.owner ≠ some p then complete s n .sourceOwned 0 0 0
  else if takes src.state then f src
  else complete s n .badState 0 0 0

/-- The parameter block a descriptor names, read where R13 says, and clamped (R13, R14). -/
def paramsAt (s : State) (p : PortId) (d : Descriptor) : AlignParams :=
  readParams s.ring.replica (stagingAddr p (blockPosition 32 d.position))

/-- A source command that reads a parameter block completes with its clamp set (R13). -/
def completeParams (s : State) (n : Nat) (read : AlignParams) (moved : Bool) : State :=
  let set := clampSet read (clampParams read) moved
  complete s n (okOr (set != 0)) set 0 0

/-- DEFINE_SOURCE (R13). -/
def execDefineSource (n : Nat) (s : State) : Host.Outcome State Fault Refusal :=
  .next (withCommand s n .defineSource fun p d =>
    checkSource s n p d.target (fun st => st != .streaming) fun src =>
      let read := paramsAt s p d
      let s := s.setSource d.target { src with
        state := .defined, owner := some p, params := clampParams read, nextSeq := 0, maxTime := none }
      completeParams s n read (blockMoved 32 d.position))

/-- CLAIM_SOURCE (R15). -/
def execClaimSource (n : Nat) (s : State) : Host.Outcome State Fault Refusal :=
  .next (withCommand s n .claimSource fun p d =>
    checkSource s n p d.target (fun st => st != .undefined) fun src =>
      complete (s.setSource d.target { src with owner := some p }) n .ok 0 0 0)

/-- RELEASE_SOURCE (R16). -/
def execReleaseSource (n : Nat) (s : State) : Host.Outcome State Fault Refusal :=
  .next (withCommand s n .releaseSource fun p d =>
    checkSource s n p d.target (fun st => st != .undefined) fun src =>
      complete (s.setSource d.target { src with owner := none }) n .ok 0 0 0)

/-- END_SOURCE (R17): a source that leaves STREAMING starts a commit run (R42). -/
def execEndSource (n : Nat) (s : State) : Host.Outcome State Fault Refusal :=
  .next (withCommand s n .endSource fun p d =>
    checkSource s n p d.target (fun st => st != .undefined) fun src =>
      let s := complete (s.setSource d.target { src with state := .ended }) n .ok 0 0 0
      if src.state = .streaming then journalProceeds (startRun s) else s)

/-- ANCHOR_SOURCE (R18). -/
def execAnchorSource (n : Nat) (s : State) : Host.Outcome State Fault Refusal :=
  .next (withCommand s n .anchorSource fun p d =>
    checkSource s n p d.target (fun st => st == .defined || st == .streaming) fun src =>
      let read := paramsAt s p d
      completeParams (s.setSource d.target { src with params := clampParams read }) n read (blockMoved 32 d.position))

/-- QUERY_SOURCE (R152). -/
def execQuerySource (n : Nat) (s : State) : Host.Outcome State Fault Refusal :=
  .next (withCommand s n .querySource fun p d =>
    if 255 < d.target then complete s n .badTarget 0 0 0
    else
      let src := s.source d.target
      complete (s.partWrite (Config.readoutEntry p 0) (sourceBytes src)) n .ok
        (src.state.code + 256 * ownerCode src.owner) src.counters.loaded src.counters.missing)

end Sys2Proof.Machine
end

