-- ==== Sys2Proof/Machine/Dispatch.lean ====
section
/-! DEFINITION. One arm per command: the one call of its meaning. -/

namespace Sys2Proof.Machine

/-- The effect of a command on everything but the queue. -/
def exec (i : Instr) (s : State) : Host.Outcome State Fault Refusal :=
  match i with
  | .reset nodeStraps sizeStraps => Sys2Proof.Machine.execReset nodeStraps sizeStraps s
  | .signalGained => Sys2Proof.Machine.execSignalGained s
  | .syncTimeout => Sys2Proof.Machine.execSyncTimeout s
  | .signalLoss => Sys2Proof.Machine.execSignalLoss s
  | .packetArrival p => Sys2Proof.Machine.execPacketArrival p s
  | .transmitPacket => Sys2Proof.Machine.execTransmitPacket s
  | .attach => Sys2Proof.Machine.execAttach s
  | .detach => Sys2Proof.Machine.execDetach s
  | .detachEnd p => Sys2Proof.Machine.execDetachEnd p s
  | .kick => Sys2Proof.Machine.execKick s
  | .rearm => Sys2Proof.Machine.execRearm s
  | .fetch p => Sys2Proof.Machine.execFetch p s
  | .dispatch => Sys2Proof.Machine.execDispatch s
  | .format n => Sys2Proof.Machine.execFormat n s
  | .loadCatalogue n => Sys2Proof.Machine.execLoadCatalogue n s
  | .catalogueWriteEnd => Sys2Proof.Machine.execCatalogueWriteEnd s
  | .loadBatch n => Sys2Proof.Machine.execLoadBatch n s
  | .alignRecord n => Sys2Proof.Machine.execAlignRecord n s
  | .lateAppendEnd => Sys2Proof.Machine.execLateAppendEnd s
  | .commitWriteEnd => Sys2Proof.Machine.execCommitWriteEnd s
  | .checkpointWriteStart => Sys2Proof.Machine.execCheckpointWriteStart s
  | .checkpointWriteEnd => Sys2Proof.Machine.execCheckpointWriteEnd s
  | .checkpointLoadEnd l => Sys2Proof.Machine.execCheckpointLoadEnd l s
  | .flush n => Sys2Proof.Machine.execFlush n s
  | .seal n => Sys2Proof.Machine.execSeal n s
  | .truncate n => Sys2Proof.Machine.execTruncate n s
  | .truncateRebuildEnd => Sys2Proof.Machine.execTruncateRebuildEnd s
  | .readLate n => Sys2Proof.Machine.execReadLate n s
  | .readEntries n => Sys2Proof.Machine.execReadEntries n s
  | .readoutCopyEnd p => Sys2Proof.Machine.execReadoutCopyEnd p s
  | .querySource n => Sys2Proof.Machine.execQuerySource n s
  | .defineSource n => Sys2Proof.Machine.execDefineSource n s
  | .claimSource n => Sys2Proof.Machine.execClaimSource n s
  | .releaseSource n => Sys2Proof.Machine.execReleaseSource n s
  | .endSource n => Sys2Proof.Machine.execEndSource n s
  | .anchorSource n => Sys2Proof.Machine.execAnchorSource n s
  | .openView n => Sys2Proof.Machine.execOpenView n s
  | .seek n => Sys2Proof.Machine.execSeek n s
  | .seekEnd v => Sys2Proof.Machine.execSeekEnd v s
  | .returnMark n => Sys2Proof.Machine.execReturn n s
  | .mark n => Sys2Proof.Machine.execMark n s
  | .park n => Sys2Proof.Machine.execPark n s
  | .resume n => Sys2Proof.Machine.execResume n s
  | .exchange n => Sys2Proof.Machine.execExchange n s
  | .closeView n => Sys2Proof.Machine.execCloseView n s
  | .run n => Sys2Proof.Machine.execRun n s
  | .hold n => Sys2Proof.Machine.execHold n s
  | .step n => Sys2Proof.Machine.execStep n s
  | .setPace n => Sys2Proof.Machine.execSetPace n s
  | .setStops n => Sys2Proof.Machine.execSetStops n s
  | .setFilter n => Sys2Proof.Machine.execSetFilter n s
  | .publish n => Sys2Proof.Machine.execPublish n s
  | .clearCauses n => Sys2Proof.Machine.execClearCauses n s
  | .frameReadEnd v => Sys2Proof.Machine.execFrameReadEnd v s
  | .timerSegmentReload v => Sys2Proof.Machine.execTimerSegmentReload v s
  | .pacingTimerExpiry v => Sys2Proof.Machine.execPacingTimerExpiry v s
  | .dramGrant => Sys2Proof.Machine.execDramGrant s
  | .parkedContextCopyEnd => Sys2Proof.Machine.execParkedContextCopyEnd s

end Sys2Proof.Machine
end

