-- ==== Sys2Proof/Safety.lean ====
section
/-! DEFINITION. The words the statements use: one byte of the local replica, the packets of writes handed over, a command
ready to start, what the end of a command leaves, a block of a catalogue load, and the invariants of the part. -/

namespace Sys2Proof.Machine

/-! ### Reading -/

/-- The byte of the local replica at address `a`. -/
def State.byteAt (s : State) (a : Nat) : Byte := Sparse.get unlistedByte s.ring.replica a

/-- Address `a` lies among the `len` bytes from `start` on. -/
def InBytes (a start len : Nat) : Prop := start ≤ a ∧ a < start + len

/-- The bytes `bs` stand in the local replica from address `a` on. -/
def Stands (s : State) (a : Nat) (bs : List Byte) : Prop := s.bytesAt a bs.length = bs

/-- The packets that writes of the part make, in the order in which they are handed over (R158). -/
def writesOf (n : Node) (ws : List (Nat × List Byte)) : List Packet :=
  ws.flatMap fun w => writePackets n w.2.length w.1 w.2

/-- Slot `v`'s timer ends a segment in the microsecond that comes (R109, R110). -/
def SegmentOver (s : State) (v : Slot) : Prop :=
  ∃ c, s.views[v].timer = some c ∧ (if (s.timebase + 1) % c.tap = 0 then c.count - 1 else c.count) = 0

/-! ### Commands and their ends (R147, R148) -/

/-- Command number `n`, of kind `k` and with descriptor `d`, is in flight at port `p` and not yet started. -/
def Taken (s : State) (n : Nat) (k : CommandKind) (p : PortId) (d : Descriptor) : Prop :=
  findCommand s n = some (p, ⟨n, d, false⟩) ∧ d.kind = some k

/-- Between `s` and `t` command `n` of port `p` has ended with this result (R148): its place in flight is released; a
port that reports has its completion record written and its completion producer index raised by one; a detaching port
has neither (R137). -/
def Ends (s t : State) (n : Nat) (p : PortId) (d : Descriptor) (r : Result) (v1 v2 v3 : Nat) : Prop :=
  t.ports[p].inFlight = s.ports[p].inFlight.filter (fun c => c.serial != n) ∧
  (if reports s p then
    t.ports[p].produced = s.ports[p].produced + 1 ∧
      Stands t (Config.completionEntry p (s.ports[p].produced.toNat % Config.ringEntries)) (completionBytes d r v1 v2 v3)
  else t.ports[p].produced = s.ports[p].produced)

/-- The bytes that the end of a command of port `p` may write: the next completion record, the port status record, and
the port's entry of the binding table, which shows the depth in force (R135). -/
def reportByte (s : State) (p : PortId) (a : Nat) : Prop :=
  InBytes a (Config.completionEntry p (s.ports[p].produced.toNat % Config.ringEntries)) 32 ∨
  InBytes a (Config.portStatusAddr p) 24 ∨ InBytes a (Config.partStatusAddr + 64 + 8 * p.val) 8

/-- `t` is `s` but for what the end of a command of port `p` changes: the port's in-flight set, completion producer
index and depth (R135, R148), the bytes of its report, and the packets held for sending. -/
def OnlyEnds (s t : State) (p : PortId) : Prop :=
  t = { s with ring := { s.ring with replica := t.ring.replica, own := t.ring.own }, ports := t.ports } ∧
  (∀ q : PortId, q ≠ p → t.ports[q] = s.ports[q]) ∧
  t.ports[p] = { s.ports[p] with
    inFlight := t.ports[p].inFlight, produced := t.ports[p].produced, depth := t.ports[p].depth,
    pendingDepth := t.ports[p].pendingDepth } ∧
  (∀ a, ¬ reportByte s p a → t.byteAt a = s.byteAt a)

/-- `exec` of command `i` on `s` answers a next state in which command `n` of port `p` has ended with this result, and
which is `u` but for that end: `u` is `s` with the command's own changes made. -/
def Completes (i : Instr) (s u : State) (n : Nat) (p : PortId) (d : Descriptor) (r : Result) (v1 v2 v3 : Nat) : Prop :=
  ∃ t, exec i s = .next t ∧ Ends u t n p d r v1 v2 v3 ∧ OnlyEnds u t p

/-- Between `s` and `t` the path of an arrival of batch number `n` has ended (R35, R53), `k` being 1 where it was found
late: with records left the batch goes on, no arrival of it being handed over; with its last record taken it is gone, and
LOAD_BATCH ends with OK or CLAMPED and with the records taken, rejected and late. -/
def BatchMovesOn (s t : State) (n k : Nat) : Prop :=
  (findBatch s n = none → t.batches = s.batches) ∧
  ∀ x, findBatch s n = some x →
    (x.taken < x.count → t.batches = s.batches.map fun y =>
      if y.serial = x.serial then { x with handed := false, late := x.late + k } else y) ∧
    (x.count ≤ x.taken → t.batches = s.batches.filter (fun y => y.serial != x.serial) ∧
      ∀ p c, findCommand s x.serial = some (p, c) →
        Ends s t x.serial p c.descriptor (if x.clamped then .clamped else .ok) x.taken x.rejected (x.late + k))

/-! ### The part status page (R159) -/

/-- The `len` bytes of the part status page from offset `off` on show their fields as they are. -/
def PageShows (s : State) (off len : Nat) : Prop :=
  Stands s (Config.partStatusAddr + off) (((partStatusBytes s).drop off).take len)

/-- The word with the ring state, the journal state, the loss flags and the last refused node is up to date. -/
def RingWordShown (s : State) : Prop := PageShows s 0 8
/-- The word with the committed count and the two occupancies is up to date. -/
def CountsShown (s : State) : Prop := PageShows s 8 8
/-- The word with the checkpoint count and the interval is up to date. -/
def DirectoryShown (s : State) : Prop := PageShows s 16 8
/-- The two words of the settled key are up to date. -/
def SettledShown (s : State) : Prop := PageShows s 24 16
/-- Port `p`'s entry of the binding table is up to date. -/
def BindingShown (s : State) (p : PortId) : Prop :=
  Stands s (Config.partStatusAddr + 64 + 8 * p.val) (bindingBytes s.ports[p])

/-! ### What commands name -/

/-- A view command's target names the live view `v` of the issuing port, and the view is not SEEKING (R76). -/
def NamesView (s : State) (p : PortId) (d : Descriptor) (v : Slot) : Prop :=
  d.target = v.val ∧ s.views[v].ctx.owner = p ∧ s.views[v].state ≠ .free ∧ s.views[v].state ≠ .seeking

/-- A view that moves: RUNNING or STALLED (R82). -/
def Moving (w : View) : Prop := w.state = .running ∨ w.state = .stalled

/-- A source command's checks pass (R12) but for the source's state. -/
def NamesSource (s : State) (p : PortId) (d : Descriptor) : Prop :=
  s.journal.state ≠ .unformatted ∧ d.target ≤ 255 ∧
    ((s.source d.target).owner = none ∨ (s.source d.target).owner = some p)

/-- Between `s` and `t` the next block of a catalogue load, at most 512 entries, is taken in staging order, and the load
has come from `c` to `c'` (R7): an entry that names no kind, no device of the catalogue or no station is skipped, any other
sets its device's catalogue entry and current committed state, and the last entry for a device stands. -/
def TakesCatalogueBlock (s t : State) (c c' : CatalogueLoad) : Prop :=
  let lines := (List.range (min 512 (c.count - c.taken))).map fun i =>
    readCatalogueLine s.ring.replica (c.addr + 8 * (c.taken + i))
  let valid : CatalogueLine → Bool := fun l =>
    decide (l.kind ≤ 3 ∧ l.device < s.journal.deviceCount ∧ l.station ≤ 4095)
  c'.addr = c.addr ∧ c'.count = c.count ∧ c'.taken = c.taken + lines.length ∧
  c'.written = c.written + lines.countP valid ∧ c'.skipped = c.skipped + lines.countP (fun l => !valid l) ∧
  c'.repaired = c.repaired + lines.countP (fun l => valid l && decide (4 < l.initial)) ∧
  ∀ dev, match (lines.filter fun l => valid l && l.device == dev).getLast? with
    | some l => (t.catalogueEntry dev).station = l.station ∧ (t.catalogueEntry dev).kind.code = l.kind ∧
        (t.catalogueEntry dev).initial = (SwitchState.ofCode l.initial).getD .unknown ∧
        t.merge.image.at dev = ⟨(SwitchState.ofCode l.initial).getD .unknown, false⟩
    | none => t.catalogueEntry dev = s.catalogueEntry dev ∧ t.merge.image.at dev = s.merge.image.at dev

/-- The blocks that no view work reaches: the journal, the merge window, the sources, the directory and what hangs on
them. -/
def SameJournal (s t : State) : Prop :=
  t.pending = s.pending ∧ t.dispatcher = s.dispatcher ∧ t.readouts = s.readouts ∧ t.sources = s.sources ∧
  t.batches = s.batches ∧ t.merge = s.merge ∧ t.journal = s.journal ∧ t.catalogue = s.catalogue ∧
  t.timebase = s.timebase ∧ t.dram.journal = s.dram.journal ∧ t.dram.slotImages = s.dram.slotImages

/-! ### Invariants -/

/-- An image is in its canonical form. -/
def Image.wf (img : Image) : Bool := Sparse.wf ImageByte.unlisted img

/-- The image that a truncation rebuild has loaded, to roll from (R58); no other work holds an image. -/
def ReservedWork.loaded : ReservedWork → Image
  | .rebuildRolling _ _ _ loaded => loaded
  | _ => []

/-- The local replica is in its canonical form, and so is every sparse table and every image of the part: the commit image,
the checkpoint slots' images, the views' images, and the image a rebuild rolls from. -/
def Canonical (s : State) : Prop :=
  Memory.wf s.ring.replica = true ∧
  Sparse.wf ({} : Source) s.sources = true ∧
  Sparse.wf CatalogueEntry.unlisted s.catalogue = true ∧
  Sparse.wf ({} : CheckpointSlot) s.directory.slots = true ∧
  Sparse.wf (none : Option ViewContext) s.parked = true ∧
  Sparse.wf (none : Option LastChange) s.merge.lastChange = true ∧
  s.merge.image.wf = true ∧
  Sparse.wf ([] : Image) s.dram.slotImages = true ∧ (∀ c ∈ s.dram.slotImages, Image.wf c.2 = true) ∧
  (∀ v : Slot, s.dram.viewImages[v].wf = true) ∧
  Image.wf ((s.journal.reserved.map fun r => r.work.loaded).getD []) = true

/-- The bounds of the merge window, the late list and the journal (R33, R47, R48), with the window in key order (R33);
every committed position holds an entry (R43), an entry is written only below the journal's capacity (R45), and every
window record and every entry has 1 to 4 witnesses (R39). -/
def WithinCapacity (s : State) : Prop :=
  s.merge.window.length ≤ Config.windowCapacity ∧
  s.merge.window.Pairwise (fun a b => a.key.le b.key = true) ∧
  s.merge.late.length ≤ Config.lateCapacity ∧
  s.journal.committed ≤ Config.journalCapacity ∧
  s.journal.committed ≤ s.dram.journal.length ∧
  (s.merge.writing.isSome = true → s.journal.committed < Config.journalCapacity) ∧
  (∀ r ∈ s.merge.window, r.others.length ≤ 3) ∧
  (∀ e ∈ s.merge.writing.toList ++ s.dram.journal, 1 ≤ e.witnesses.length ∧ e.witnesses.length ≤ 4)

/-- Every port's buffered and in-flight commands each number no more than its depth in force (R142, R144). -/
def WithinDepth (s : State) : Prop :=
  ∀ p : PortId, s.ports[p].inFlight.length ≤ s.ports[p].depth ∧ s.ports[p].buffer.length ≤ s.ports[p].depth

/-- A class with no request waiting has ageing count 0 (R171), and classes A and B hold requests of the requesters that
their order names alone (R172). -/
def ArbiterSane (s : State) : Prop :=
  (∀ k : RequestClass, s.arbiter.hasWaiting k = false → s.arbiter.age k = 0) ∧
  (∀ r ∈ s.arbiter.waiting ++ s.arbiter.backlog,
    (r.cls = .a → ∃ v : Slot, r.who = .view v) ∧ (r.cls = .b → r.who = .rebuild ∨ ∃ v : Slot, r.who = .view v))

/-- The ring has 2 to 32 nodes, it is UP only for a node number within it (R166), and no notice queue holds more than
64 notices (R160). -/
def RingSane (s : State) : Prop :=
  2 ≤ s.ring.size ∧ s.ring.size ≤ 32 ∧ (s.ring.up = true → s.ring.node.val < s.ring.size) ∧
  s.ring.attachQueue.length ≤ Config.queueCapacity ∧ s.ring.detachQueue.length ≤ Config.queueCapacity ∧
  s.ring.kickQueue.length ≤ Config.queueCapacity ∧ s.ring.rearmQueue.length ≤ Config.queueCapacity

end Sys2Proof.Machine
end

