-- ==== Sys2Proof/Certificates/Slice0/Obligations.lean ====
section
/-! DEFINITION. The statements for the provers: what the commands of the part do, when they complete, and the invariants
that every step keeps. Hypotheses are on the state and the operands alone. -/

open Sys2Proof Sys2Proof.Machine

/-! ### One step, reset, invariants -/

/-- A step takes the command at the front of the queue and runs it with the queue's rest left waiting. -/
def Obligations.StepTakesFront : Prop :=
  ∀ (s : State) (c : Instr) (rest : List Instr), s.pending = c :: rest → step s = exec c { s with pending := rest }

/-- On an empty queue one microsecond passes (R109, R110): the timebase counts on, and every counting timer lowers its
count at a pulse of its tap. Where no timer ends a segment nothing else changes. Where one timer does, it loads 65,536
in the same step while reload segments remain, and otherwise it is IDLE and its frame is released. That a microsecond
passes on an empty queue is the model's choice (log entry 2); several timers that end in one are taken in increasing
slot number (log entry 25), and are not stated here. -/
def Obligations.IdleStepCountsMicrosecond : Prop :=
  ∀ s : State, s.pending = [] →
    let pulsed : State := { s with
      timebase := s.timebase + 1
      views := s.views.map fun w => { w with timer := w.timer.map fun c =>
        if (s.timebase + 1) % c.tap = 0 then { c with count := c.count - 1 } else c } }
    ((∀ v : Slot, ¬ SegmentOver s v) → step s = .next pulsed) ∧
    (∀ (v : Slot) (c : Countdown), s.views[v].timer = some c → SegmentOver s v → (∀ x : Slot, x ≠ v → ¬ SegmentOver s x) →
      (c.segments ≠ 0 → step s = .next { pulsed with views := pulsed.views.set v { s.views[v] with
        timer := some ⟨c.tap, 65536, c.segments - 1⟩ } }) ∧
      (c.segments = 0 →
        let idle : State := { pulsed with views := pulsed.views.set v { s.views[v] with timer := none } }
        (s.views[v].frame = none → step s = .next idle) ∧
        ∀ f, s.views[v].frame = some f → step s = .next (releaseFrame idle v f)))

/-- What reset leaves (R9, R10, R33, R41, R50, R61, R77, R97, R109, R138, R144, R146, R153, R160, R166, R171): the
straps are sampled, the ring is DOWN, the stacked DRAM keeps its contents (R169), and the fields of every block are
given their values; of a view, its context and the two fields of its gap are not named, since the slot is FREE. Right
after reset a station reads a replica of zeros, no port fetches, and the tables of sources, checkpoint slots and parked
contexts read as empty. That RESET leaves no signal on the upstream port is the model's choice (log entry 4), as is that
it keeps the queue (log entry 6); so are the values of the model's own fields (log entries 7, 21 and 22), the empty
lists of operations in progress among them (log entry 24). -/
def Obligations.ResetLeaves : Prop :=
  ∀ (node : BitVec 5) (size : BitVec 6) (s : State), ∃ t, exec (.reset node size) s = .next t ∧
    t.pending = s.pending ∧ t.dram = s.dram ∧
    (t.ring.up = false ∧ t.ring.node.val = node.toNat ∧ t.ring.size = max 2 (min 32 size.toNat) ∧
      t.ring.signal = false ∧ t.ring.syncWaiting = false ∧ t.ring.own = [] ∧ t.ring.forward = [] ∧ t.ring.lossFlags = 0 ∧
      t.ring.lastRefused = none ∧ t.ring.sent = none ∧ t.ring.lastOwn = false ∧ t.ring.attachQueue = [] ∧
      t.ring.detachQueue = [] ∧ t.ring.kickQueue = [] ∧ t.ring.rearmQueue = [] ∧ ∀ a, t.byteAt a = 0) ∧
    (∀ p : PortId, t.ports[p] = {
        bound := none, detaching := false, weight := 1, depth := 1, pendingDepth := none, look := false, halted := false
        haltValue := 0, head := 0, buffer := [], inFlight := [], produced := 0, fired := false, causes := 0 } ∧
      t.readouts[p] = none ∧ fetchState t p = .stopped) ∧
    t.dispatcher = ⟨0, 0, 0⟩ ∧ t.batches = [] ∧ t.copies = [] ∧ t.timebase = 0 ∧
    (∀ i, t.source i = ⟨.undefined, none, ⟨1, 0, 0, 0, 0, 0, 0⟩, 0, none, ⟨0, 0, 0, 0, 0, 0, 0⟩⟩) ∧
    t.journal = ⟨.unformatted, 0, 1000000, 0, none⟩ ∧
    (∀ d, t.catalogueEntry d = ⟨0, .breaker, .unknown⟩ ∧ t.merge.image.at d = ⟨.unknown, false⟩ ∧ lastChangeOf t d = none) ∧
    (t.merge.window = [] ∧ t.merge.arrivalOrder = 0 ∧ t.merge.settled = none ∧ t.merge.writing = none ∧ t.merge.run = none ∧
      t.merge.path = .idle ∧ t.merge.handed = [] ∧ t.merge.waiting = [] ∧ t.merge.resuming = [] ∧
      t.merge.paused = false ∧ t.merge.flushes = [] ∧ t.merge.late = [] ∧ t.merge.lateDropped = 0) ∧
    (∀ k, t.slot k = { state := .free, pos := 0, pins := 0 }) ∧
    (t.directory.interval = 1024 ∧ t.directory.write = none ∧ t.directory.due = none) ∧
    (∀ v : Slot, t.views[v].state = .free ∧ t.views[v].frame = none ∧ t.views[v].seek = none ∧ t.views[v].step = none ∧
      t.views[v].armed = none ∧ t.views[v].atEdge = false ∧ t.views[v].timer = none ∧ t.views[v].producer = 0 ∧
      t.views[v].lostMarks = 0) ∧
    (∀ i, t.parkedEntry i = none) ∧ t.arbiter = ⟨[], [], none, 0, 0, 0, 0, 7, 8⟩

/-- The invariants stated below hold right after reset. -/
def Obligations.InvariantsAtReset : Prop :=
  Canonical State.reset ∧ WithinCapacity State.reset ∧ WithinDepth State.reset ∧ ArbiterSane State.reset ∧
    RingSane State.reset

/-- Every step keeps the replica, the part's tables and every sparse image of the part (the commit image, the checkpoint
slots' and the views' images, the image a rebuild rolls from) in their canonical form. -/
def Obligations.StepKeepsCanonicalForm : Prop := ∀ s t : State, Canonical s → step s = .next t → Canonical t

/-- Every step keeps the bounds of the window, the late list and the journal, and the window's key order (R33, R47,
R48). -/
def Obligations.StepKeepsCapacities : Prop := ∀ s t : State, WithinCapacity s → step s = .next t → WithinCapacity t

/-- Every step keeps the ageing count of a class without a waiting request at 0 (R171), and requests with the requesters
of their class (R172); each port's buffered and in-flight commands within its depth (R142, R144); and the ring's size,
its state and its notice queues within their bounds (R160, R166). -/
def Obligations.StepKeepsArbiterDepthsAndRing : Prop :=
  (∀ s t : State, ArbiterSane s → step s = .next t → ArbiterSane t) ∧
  (∀ s t : State, WithinDepth s → step s = .next t → WithinDepth t) ∧
  (∀ s t : State, RingSane s → step s = .next t → RingSane t)

/-! ### Alignment, images, pacing -/

/-- The drift correction is the nearest integer to N × drift_ppb / 10^9, an exact half rounded away from zero, with the
sign of the product (R26). -/
def Obligations.DriftCorrectionRounding : Prop :=
  ∀ (p : AlignParams) (raw : Nat), let x := elapsedNs p raw * p.driftPpb
    let c := p.anchorTime * 1000 + elapsedNs p raw + p.offsetUs * 1000 - studyNs p raw
    2 * c.natAbs * 1000000000 ≤ 2 * x.natAbs + 1000000000 ∧ 2 * x.natAbs < 2 * c.natAbs * 1000000000 + 1000000000 ∧
    (0 ≤ x → 0 ≤ c) ∧ (x ≤ 0 → c ≤ 0) ∧ roundHalfAway (-x) = -roundHalfAway x ∧ (p.driftPpb = 0 → c = 0)

/-- The study time and its clamps, and the uncertainty (R25, R27, R28): beyond 2^60 ns nothing is carried further; a
negative time becomes 0; otherwise the nearest microsecond, an exact half rounded up, held at 2^40 − 1; the drift part
of the uncertainty is rounded up. -/
def Obligations.AlignedTimeAndUncertainty : Prop :=
  ∀ (p : AlignParams) (raw : Nat), let n := elapsedNs p raw
    (1152921504606846976 < n.natAbs → align p raw = ⟨if n < 0 then 0 else 1099511627775, 65535, true⟩) ∧
    (n.natAbs ≤ 1152921504606846976 →
      (studyNs p raw < 0 → (align p raw).time = 0 ∧ (align p raw).clamped = true) ∧
      (0 ≤ studyNs p raw → ∀ t : Nat, (t : Int) * 1000 ≤ studyNs p raw + 500 → studyNs p raw + 500 < ((t : Int) + 1) * 1000 →
        (align p raw).time = min t 1099511627775 ∧ (align p raw).clamped = decide (1099511627775 < t)) ∧
      ∀ k : Nat, n.natAbs / 1000 * p.driftUncPpb ≤ k * 1000000000 →
        k * 1000000000 < n.natAbs / 1000 * p.driftUncPpb + 1000000000 → (align p raw).unc = min (p.baseUnc + k) 65535)

/-- Entries applied forward and then backward over the same stretch leave every image byte as it was, mark included
(R83), where each entry holds the state and the mark that stood before it. -/
def Obligations.BackwardUndoesForward : Prop :=
  ∀ (img : Image) (es : List Entry),
    (∀ (i : Nat) (h : i < es.length),
      (img.rollForward (es.take i)).at es[i].device = ⟨es[i].priorState, es[i].priorMark⟩) →
    ∀ d, ((img.rollForward es).rollBackward es).at d = img.at d

/-- The delay of a gap and the load of its timer (R108 to R110): the delay is the compressed gap scaled by the speed;
the load is the finest tap whose count is at most 65,535, and reload segments of the 4,096 µs tap beyond it. -/
def Obligations.DelayAndTimerLoad : Prop :=
  (∀ gap quiet : Nat, (∀ k : Nat, delayOf gap quiet k * 2 ^ k ≤ min gap quiet ∧
      min gap quiet < (delayOf gap quiet k + 1) * 2 ^ k) ∧
    ∀ k : Nat, delayOf gap quiet (-(k : Int)) = min gap quiet * 2 ^ k) ∧
  (∀ d : Nat, 0 < d → let c := loadTimer d
    let pulses := c.count + 65536 * c.segments
    c.tap ∈ [1, 16, 256, 4096] ∧ d ≤ c.tap * pulses ∧ c.tap * (pulses - 1) < d ∧ 1 ≤ c.count ∧ c.count ≤ 65536 ∧
    (∀ u ∈ [1, 16, 256, 4096], u < c.tap → 65535 * u < d) ∧
    (d ≤ 268431360 → c.segments = 0 ∧ c.count ≤ 65535) ∧ (268431360 < d → c.tap = 4096))

/-! ### Sources and readouts -/

/-- Each alignment parameter outside its range becomes the nearest limit, the others stay as given, and the clamp set
holds a flag for each one changed (R13, R14). DEFINE_SOURCE and ANCHOR_SOURCE write the clamped parameters of the block
their descriptor names, and complete with the clamp set (R13, R18). DEFINE_SOURCE also sets the owner, makes the source
DEFINED, and restarts its numbering; the counters are kept. -/
def Obligations.DefineAndAnchorWriteParameters : Prop :=
  (∀ (x : AlignParams) (moved : Bool), let k := clampParams x
    k.tickNs = max 1 (min x.tickNs 1000000) ∧ k.anchorRaw = x.anchorRaw ∧ k.anchorTime = min x.anchorTime 1099511627775 ∧
    k.driftPpb = max (-1000000) (min x.driftPpb 1000000) ∧ k.offsetUs = max (-10000000) (min x.offsetUs 10000000) ∧
    k.baseUnc = min x.baseUnc 65535 ∧ k.driftUncPpb = min x.driftUncPpb 1000000 ∧
    (let set := clampSet x k moved
     (set.testBit 0 = true ↔ k.tickNs ≠ x.tickNs) ∧ set.testBit 1 = false ∧
     (set.testBit 2 = true ↔ k.anchorTime ≠ x.anchorTime) ∧ (set.testBit 3 = true ↔ k.driftPpb ≠ x.driftPpb) ∧
     (set.testBit 4 = true ↔ k.offsetUs ≠ x.offsetUs) ∧ (set.testBit 5 = true ↔ k.baseUnc ≠ x.baseUnc) ∧
     (set.testBit 6 = true ↔ k.driftUncPpb ≠ x.driftUncPpb) ∧ (set.testBit 7 = moved) ∧ set < 256)) ∧
  (∀ (s : State) (n : Nat) (p : PortId) (d : Descriptor), NamesSource s p d →
    let src := s.source d.target
    let read := readParams s.ring.replica (stagingAddr p (blockPosition 32 d.position))
    let set := clampSet read (clampParams read) (blockMoved 32 d.position)
    (Taken s n .defineSource p d → src.state ≠ .streaming →
      Completes (.defineSource n) s (s.setSource d.target { src with
        state := .defined, owner := some p, params := clampParams read, nextSeq := 0, maxTime := none })
        n p d (if set = 0 then .ok else .clamped) set 0 0) ∧
    (Taken s n .anchorSource p d → src.state = .defined ∨ src.state = .streaming →
      Completes (.anchorSource n) s (s.setSource d.target { src with params := clampParams read })
        n p d (if set = 0 then .ok else .clamped) set 0 0))

/-- CLAIM_SOURCE (R15): the owner of a DEFINED, STREAMING or ENDED source becomes the issuing port, and nothing else of
any source changes; a claim of a source the port owns changes nothing. RELEASE_SOURCE (R16): a source becomes unowned
and keeps its state and all else; the settled horizon stands as it was, so a released STREAMING source goes on holding
it back. END_SOURCE (R17): a source becomes ENDED and the command completes with OK; when the source was STREAMING, the
Merge Unit then makes a commit run under the horizon of the sources left (R42). -/
def Obligations.ClaimReleaseAndEnd : Prop :=
  (∀ (s : State) (n : Nat) (p : PortId) (d : Descriptor), Taken s n .claimSource p d → NamesSource s p d →
    (s.source d.target).state ≠ .undefined →
    ∃ t, exec (.claimSource n) s = .next t ∧
      Ends (s.setSource d.target { s.source d.target with owner := some p }) t n p d .ok 0 0 0 ∧
      OnlyEnds (s.setSource d.target { s.source d.target with owner := some p }) t p ∧
      t.source d.target = { s.source d.target with owner := some p } ∧
      (∀ j, j ≠ d.target → t.source j = s.source j) ∧
      ((s.source d.target).owner = some p → ∀ j, t.source j = s.source j)) ∧
  (∀ (s : State) (n : Nat) (p : PortId) (d : Descriptor), Canonical s → Taken s n .releaseSource p d → NamesSource s p d →
    (s.source d.target).state ≠ .undefined →
    ∃ t, exec (.releaseSource n) s = .next t ∧
      Ends (s.setSource d.target { s.source d.target with owner := none }) t n p d .ok 0 0 0 ∧
      OnlyEnds (s.setSource d.target { s.source d.target with owner := none }) t p ∧
      t.source d.target = { s.source d.target with owner := none } ∧
      (∀ j, j ≠ d.target → t.source j = s.source j) ∧
      ((s.source d.target).owner = none → ∀ j, t.source j = s.source j) ∧
      horizon t = horizon s) ∧
  (∀ (s : State) (n : Nat) (p : PortId) (d : Descriptor), Taken s n .endSource p d → NamesSource s p d →
    (s.source d.target).state ≠ .undefined →
    let u := s.setSource d.target { s.source d.target with state := .ended }
    ∃ t, Ends u t n p d .ok 0 0 0 ∧ OnlyEnds u t p ∧ t.source d.target = { s.source d.target with state := .ended } ∧
      exec (.endSource n) s = .next (if (s.source d.target).state = .streaming then
        journalProceeds { t with merge := { t.merge with run := some (horizon t) } } else t))

/-- READ_LATE and READ_ENTRIES while no reservation is held (R49, R151): the checks in order, and the copy that starts
in the issuing port's readout area, one class D read for each 64 records. READ_LATE starts when no other is in progress.
QUERY_SOURCE (R152): the whole source record is written from the readout area's first entry on, and the command
completes with the state, the owner, the loaded and the missing counters; a source id above 255 is BAD_TARGET. The end
of a readout (R49, R150, R151): its last block is written into the port's readout area behind the blocks before it,
READ_LATE with its remove flag set drops the records copied, the word with the late list's occupancy showing it (R159),
and the command completes with its counts. -/
def Obligations.ReadoutsCopyAndEnd : Prop :=
  (∀ (s : State) (n : Nat) (p : PortId) (d : Descriptor), reservationHeld s = false →
    (Taken s n .readLate p d → (∀ (q : PortId) (r : Readout), s.readouts[q] = some r → r.isLate = false) →
      let count := min (min (d.field 8 2) 2048) s.merge.late.length
      (count = 0 → Completes (.readLate n) s s n p d .empty 0 0 0) ∧
      (count ≠ 0 → exec (.readLate n) s = .next { markStarted s n with
        readouts := s.readouts.set p (some ⟨n, true, 0, count, 0, d.field 10 1 != 0, decide (2048 < d.field 8 2)⟩),
        arbiter := s.arbiter.submit (.readout p) (requests (.readout p) .d .readout ((count + 63) / 64) true) })) ∧
    (Taken s n .readEntries p d →
      let count := min (min (d.field 12 2) 2048) (s.journal.committed - d.position)
      (s.journal.state = .unformatted → Completes (.readEntries n) s s n p d .badState 0 0 0) ∧
      (s.journal.state ≠ .unformatted → count = 0 → Completes (.readEntries n) s s n p d .empty 0 0 0) ∧
      (s.journal.state ≠ .unformatted → count ≠ 0 → exec (.readEntries n) s = .next { markStarted s n with
        readouts := s.readouts.set p (some ⟨n, false, d.position, count, 0, false, decide (count < d.field 12 2)⟩),
        arbiter := s.arbiter.submit (.readout p) (requests (.readout p) .d .readout ((count + 63) / 64) true) }))) ∧
  (∀ (s : State) (n : Nat) (p : PortId) (d : Descriptor), Taken s n .querySource p d →
    (255 < d.target → Completes (.querySource n) s s n p d .badTarget 0 0 0) ∧
    (d.target ≤ 255 →
      let src := s.source d.target
      let u := s.partWrite (Config.readoutEntry p 0) (sourceBytes src)
      Stands u (Config.readoutEntry p 0) (sourceBytes src) ∧ (sourceBytes src).length = 96 ∧
      (∀ a, ¬ InBytes a (Config.readoutEntry p 0) 96 → u.byteAt a = s.byteAt a) ∧
      Completes (.querySource n) s u n p d .ok (src.state.code + 256 * (match src.owner with
        | some q => q.val
        | none => 255)) src.counters.loaded src.counters.missing)) ∧
  (∀ (s : State) (p : PortId) (r : Readout) (c : InFlight), WithinCapacity s →
    channelEnds s (.readout p) .readout = true →
    s.readouts[p] = some r → findCommand s r.serial = some (p, c) →
    r.count ≤ r.copied + 64 → r.copied < r.count → r.count ≤ 2048 →
    (r.isLate = true → r.count ≤ s.merge.late.length) →
    (r.isLate = false → r.start + r.count ≤ s.dram.journal.length) →
    let block := if r.isLate then ((s.merge.late.drop r.copied).take (r.count - r.copied)).flatMap lateBytes
      else (entriesBetween s (r.start + r.copied) (r.start + r.count)).flatMap entryBytes
    ∃ u, Stands u (Config.readoutEntry p r.copied) block ∧
      u.readouts[p] = none ∧ u.arbiter = s.arbiter.finish ∧ (r.isLate = true → r.remove = true → CountsShown u) ∧
      u.merge = { s.merge with late := if r.isLate && r.remove then s.merge.late.drop r.count else s.merge.late } ∧
      u = { s with ring := { s.ring with replica := u.ring.replica, own := u.ring.own }
                   readouts := s.readouts.set p none
                   merge := u.merge, arbiter := u.arbiter } ∧
      (∀ a, ¬ InBytes a (Config.readoutEntry p r.copied) (32 * (r.count - r.copied)) →
        ¬ InBytes a 0x800008 8 → u.byteAt a = s.byteAt a) ∧
      Completes (.readoutCopyEnd p) s u r.serial p c.descriptor (if r.clamped then .clamped else .ok) r.count
        (if r.isLate then u.merge.late.length else r.start) (if r.isLate then s.merge.lateDropped else s.journal.committed))

/-! ### Formatting, the catalogue and the reservation -/

/-- What the journal reservation means (R51). It is held while a FORMAT, LOAD_CATALOGUE, SEAL or TRUNCATE is in flight
at any port. While it is held, a LOAD_BATCH, FLUSH, seek, READ_ENTRIES or READ_LATE changes nothing and waits, in
flight. A reserving command may start exactly when none started is at work, none dispatched before it is in flight, and
no batch, flush, seek or readout has started; until then it changes nothing and waits. That a commit under way does not
hold it back: log entry 9. -/
def Obligations.ReservationHoldsJournalWork : Prop :=
  (∀ s : State, reservationHeld s = true ↔
    ∃ p : PortId, ∃ c ∈ s.ports[p].inFlight,
      c.descriptor.kind ∈ [some CommandKind.format, some .loadCatalogue, some .seal, some .truncate]) ∧
  (∀ (s : State) (n : Nat), mayReserve s n = true ↔ s.journal.reserved = none ∧
    ∀ p : PortId, ∀ c ∈ s.ports[p].inFlight,
      (c.descriptor.kind ∈ [some CommandKind.format, some .loadCatalogue, some .seal, some .truncate] → n ≤ c.serial) ∧
      (c.descriptor.kind ∈ [some CommandKind.loadBatch, some .flush, some .openView, some .seek, some .returnMark,
        some .resume, some .exchange, some .readEntries, some .readLate] → c.started = false)) ∧
  (∀ (s : State) (n : Nat) (p : PortId) (d : Descriptor) (k : CommandKind) (i : Instr),
    (k, i) ∈ [(CommandKind.loadBatch, Instr.loadBatch n), (.flush, .flush n), (.openView, .openView n), (.seek, .seek n),
      (.returnMark, .returnMark n), (.resume, .resume n), (.exchange, .exchange n), (.readEntries, .readEntries n),
      (.readLate, .readLate n)] → Taken s n k p d → reservationHeld s = true → exec i s = .next s) ∧
  (∀ (s : State) (n : Nat) (p : PortId) (d : Descriptor) (k : CommandKind) (i : Instr),
    (k, i) ∈ [(CommandKind.format, Instr.format n), (.loadCatalogue, .loadCatalogue n), (.seal, .seal n),
      (.truncate, .truncate n)] → Taken s n k p d → mayReserve s n = false → exec i s = .next s)

/-- FORMAT once it may start (R56): with a live view it completes with VIEWS_OPEN; otherwise it clamps its operands and
moves the journal to REBUILDING, and the window, the late list, the sources, the parked contexts and the catalogue are
emptied; the late list's drop count and the settled key go with them, and the words of the part status page that show
these fields are rewritten (R159). Where an entry is being written as it starts, that emptying follows at the write's
end (log entry 9). -/
def Obligations.FormatEmptiesJournal : Prop :=
  let empties := fun (x t : State) (n : Nat) (clamped : Bool) (count interval slack : Nat) =>
    t = { x with
      ring := { x.ring with replica := t.ring.replica, own := t.ring.own }
      journal := ⟨.rebuilding, 0, slack, count, some ⟨n, clamped, .formatCatalogue interval⟩⟩
      merge := Merge.reset, sources := [], batches := [], parked := [], catalogue := []
      arbiter := x.arbiter.submit .catalogueWriter
        (requests .catalogueWriter .d .catalogueWrite ((count + 511) / 512) true) } ∧
    RingWordShown t ∧ CountsShown t ∧ SettledShown t ∧ (∀ a, ¬ InBytes a 0x800000 40 → t.byteAt a = x.byteAt a)
  (∀ (s : State) (n : Nat) (p : PortId) (d : Descriptor), Taken s n .format p d → mayReserve s n = true →
    ((∃ v : Slot, s.views[v].state ≠ .free) → Completes (.format n) s s n p d .viewsOpen 0 0 0) ∧
    ((∀ v : Slot, s.views[v].state = .free) → ∃ (t : State) (count interval slack : Nat),
      let clamped := decide (count ≠ d.field 8 2 ∨ interval ≠ d.field 10 2 ∨ slack ≠ d.field 12 4)
      exec (.format n) s = .next t ∧
      count = max 1 (min (d.field 8 2) 32768) ∧ slack = min (d.field 12 4) 60000000 ∧
      interval ∈ [1024, 2048, 4096, 8192] ∧ (interval ≤ d.field 10 2 ∨ interval = 1024) ∧
      (∀ i ∈ [1024, 2048, 4096, 8192], i ≤ d.field 10 2 → i ≤ interval) ∧
      (s.merge.writing = none → empties (markStarted s n) t n clamped count interval slack) ∧
      (s.merge.writing ≠ none →
        t = { markStarted s n with
          ring := { s.ring with replica := t.ring.replica, own := t.ring.own }
          journal := { s.journal with
            state := .rebuilding, reserved := some ⟨n, clamped, .formatCommit count interval slack⟩ } } ∧
        RingWordShown t ∧ (∀ a, ¬ InBytes a 0x800000 8 → t.byteAt a = s.byteAt a)))) ∧
  (∀ (x : State) (n : Nat) (clamped : Bool) (count interval slack : Nat),
    x.journal.reserved = some ⟨n, clamped, .formatCommit count interval slack⟩ →
    empties x (reservedAfterCommit x) n clamped count interval slack)

/-- LOAD_CATALOGUE once it may start (R7): it is refused unless the journal is BUILDING and empty, the window is empty
and no view is live; it takes its entries in staging order, 512 to a write, each block as its write is presented (log
entry 13): the first here, the later ones in GrantEndsTransfer. The end of the last catalogue write (R8, R72; that this
row ends FORMAT's writes too: log entry 13): for LOAD_CATALOGUE checkpoint 0 is rewritten in its own slot; for FORMAT
every checkpoint slot is freed, the interval is set and checkpoint 0 is written into slot 0, once no checkpoint write is
in flight. The position a FREE slot holds is the model's (log entry 21). -/
def Obligations.CatalogueLoadAndWriteEnd : Prop :=
  (∀ (s : State) (n : Nat) (p : PortId) (d : Descriptor), Taken s n .loadCatalogue p d → mayReserve s n = true →
    let count := min (min (d.field 12 2) 4096) ((512000 - 8 * d.position) / 8)
    let open_ := s.journal.state = .building ∧ s.journal.committed = 0 ∧ s.merge.window = [] ∧
      ∀ v : Slot, s.views[v].state = .free
    (¬ open_ → Completes (.loadCatalogue n) s s n p d .badState 0 0 0) ∧
    (open_ → count = 0 → Completes (.loadCatalogue n) s s n p d .empty 0 0 0) ∧
    (open_ → count ≠ 0 → ∃ (t : State) (c : CatalogueLoad), exec (.loadCatalogue n) s = .next t ∧
      TakesCatalogueBlock s t ⟨stagingAddr p d.position, count, 0, 0, 0, 0⟩ c ∧
      t = { markStarted s n with
        journal := { s.journal with reserved := some ⟨n, decide (count < d.field 12 2), .catalogueLoad c⟩ }
        catalogue := t.catalogue, merge := { s.merge with image := t.merge.image }
        arbiter := s.arbiter.submit .catalogueWriter
          [⟨.catalogueWriter, .d, .catalogueWrite, decide (count ≤ 512)⟩] })) ∧
  (∀ (s : State) (n : Nat) (clamped : Bool), channelEnds s .catalogueWriter .catalogueWrite = true →
    (∀ c, s.journal.reserved = some ⟨n, clamped, .catalogueLoad c⟩ → exec .catalogueWriteEnd s = .next { s with
      journal := { s.journal with reserved := some ⟨n, clamped, .catalogueCheckpoint c⟩ }
      directory := { s.directory with write := some ⟨0, 0, true⟩, due := none }
      arbiter := s.arbiter.finish.submit .checkpointWriter
        (requests .checkpointWriter .c .checkpointWrite 16 true) }) ∧
    (∀ i, s.journal.reserved = some ⟨n, clamped, .formatCatalogue i⟩ → checkpointHold s = true →
      exec .catalogueWriteEnd s = .next { s with
        journal := { s.journal with reserved := some ⟨n, clamped, .formatDirectory i⟩ }, arbiter := s.arbiter.finish }) ∧
    (∀ i, s.journal.reserved = some ⟨n, clamped, .formatCatalogue i⟩ → checkpointHold s = false → Canonical s →
      ∃ t, exec .catalogueWriteEnd s = .next t ∧
        t = { s with
          ring := { s.ring with replica := t.ring.replica, own := t.ring.own }
          journal := { s.journal with reserved := some ⟨n, clamped, .formatCheckpoint⟩ }
          directory := { slots := t.directory.slots, interval := i, write := some ⟨0, 0, false⟩, due := none }
          arbiter := s.arbiter.finish.submit .checkpointWriter
            (requests .checkpointWriter .c .checkpointWrite 16 true) } ∧
        (∀ k, t.slot k = { state := if k = 0 then .writing else .free, pos := 0, pins := (s.slot k).pins }) ∧
        (∀ a, ¬ InBytes a 0x800010 8 → t.byteAt a = s.byteAt a)))

/-! ### Batches, arrivals and commits -/

/-- LOAD_BATCH while no reservation is held (R52): the checks in order, the first that fails deciding the result, and
the batch that is handed to the Alignment Unit. ALIGN_RECORD on a record that names no device (R20 to R22): the source
streams, its sequence check is made, and the record is counted as rejected and not aligned; with its last record
rejected the batch completes (R53). ALIGN_RECORD on any other record (R20, R21, R23, R30, R31): the source streams, its
numbering, max_time_seen and loaded counter move on, and the aligned record with its flags is handed to the Merge Unit,
which then goes on. -/
def Obligations.BatchesAligned : Prop :=
  (∀ (s : State) (n : Nat) (p : PortId) (d : Descriptor), Taken s n .loadBatch p d → reservationHeld s = false →
    let header := stagingAddr p d.position
    let asked := readField s.ring.replica (header + 2) 2
    let count := min (min asked 256) ((512000 - (8 * d.position + 16)) / 16)
    let src := s.source d.target
    let ends := fun r => Completes (.loadBatch n) s s n p d r 0 0 0
    (s.journal.state ≠ .building → ends .badState) ∧
    (s.journal.state = .building →
      (255 < d.target ∨ 511984 < 8 * d.position ∨ readField s.ring.replica header 2 ≠ d.target → ends .badTarget) ∧
      (d.target ≤ 255 → 8 * d.position ≤ 511984 → readField s.ring.replica header 2 = d.target →
        (src.owner = none → ends .badState) ∧
        (∀ q, src.owner = some q → q ≠ p → ends .sourceOwned) ∧
        (src.owner = some p → src.state = .undefined ∨ src.state = .ended → ends .badState) ∧
        (src.owner = some p → src.state = .defined ∨ src.state = .streaming →
          (count = 0 → ends .empty) ∧
          (count ≠ 0 → exec (.loadBatch n) s = .next { markStarted s n with
            batches := s.batches ++ [⟨n, p, d.target, header + 16, count, decide (count < asked), 0, 0, 0, false⟩] }))))) ∧
  (∀ (s : State) (n : Nat) (b : Batch), findBatch s n = some b → b.handed = false → b.taken < b.count →
    let r := readRaw s.ring.replica (b.addr + 16 * b.taken)
    let src := s.source b.source
    s.journal.deviceCount ≤ r.device →
    let u := s.setSource b.source { src with
      state := if src.state = .defined then .streaming else src.state
      nextSeq := max src.nextSeq (min (r.seq + 1) 4294967295)
      counters := { src.counters with
        missing := if src.nextSeq < r.seq then min (src.counters.missing + (r.seq - src.nextSeq)) 4294967295
          else src.counters.missing
        rejected := min (src.counters.rejected + 1) 4294967295 } }
    (b.taken + 1 < b.count → exec (.alignRecord n) s = .next { u with batches := s.batches.map fun x =>
      if x.serial = b.serial then { b with taken := b.taken + 1, rejected := b.rejected + 1 } else x }) ∧
    (b.count = b.taken + 1 → ∀ (p : PortId) (c : InFlight), findCommand s b.serial = some (p, c) →
      Completes (.alignRecord n) s { u with batches := s.batches.filter fun x => x.serial != b.serial } b.serial p
        c.descriptor (if b.clamped then .clamped else .ok) (b.taken + 1) (b.rejected + 1) b.late)) ∧
  (∀ (s : State) (n : Nat) (b : Batch), findBatch s n = some b → b.handed = false → b.taken < b.count →
    let r := readRaw s.ring.replica (b.addr + 16 * b.taken)
    let src := s.source b.source
    let a := align src.params r.raw
    r.device < s.journal.deviceCount →
    exec (.alignRecord n) s = .next (journalProceeds { s.setSource b.source { src with
        state := if src.state = .defined then .streaming else src.state
        nextSeq := max src.nextSeq (min (r.seq + 1) 4294967295)
        maxTime := some (max (src.maxTime.getD 0) a.time)
        counters := { src.counters with
          missing := if src.nextSeq < r.seq then min (src.counters.missing + (r.seq - src.nextSeq)) 4294967295
            else src.counters.missing
          loaded := min (src.counters.loaded + 1) 4294967295 } } with
      batches := s.batches.map fun x => if x.serial = b.serial then { b with taken := b.taken + 1, handed := true } else x
      merge := { s.merge with handed := s.merge.handed ++ [{
        batch := b.serial, device := r.device, state := (SwitchState.ofCode r.state).getD .unknown
        witness := {
          src := b.source, seq := r.seq, time := a.time, unc := a.unc, origin := Origin.ofCode r.origin, order := 0
          flags := ⟨decide (src.nextSeq < r.seq), decide (r.seq < src.nextSeq), a.clamped, decide (4 < r.state)⟩ } }] } }))

/-- The Merge Unit takes an arrival by the first test that disposes of it (R35 to R40, R45 to R48): an exact duplicate
changes no record; a late one is put on the late list, or dropped from a full one, and LATE_RECORDS is raised on the
port that owns its source; one that a record can take joins the nearest in time, the lower key of two equally near, its
witnesses best first and the worst of five dropped and counted as folded; any other becomes a new record, in key order,
flagged AMBIGUOUS by the two tests. In a full window it is refused on a full journal, waits behind any other hold, or
forces the commit of the lowest record with FORCED. A path that ends starts a commit run, and its batch goes on, or
LOAD_BATCH completes with its counts where this was its last record (R53); a batch whose arrival waits, forces a commit
or is being appended stays as it is. The occupancies shown follow (R33, R48). That a late record stands on the list
before its append's request has ended: log entry 10. That the record of a forced commit stays in the window while its
entry is written: log entry 8. That the record a full journal refuses is left out of the batch's rejected detail: log
entry 16. That the forced counter rises as the forced commit begins: log entry 30. -/
def Obligations.ArrivalDisposedOf : Prop :=
  ∀ (s : State) (a : Arrival),
    let order := min (s.merge.arrivalOrder + 1) 18446744073709551615
    let w := { a.witness with order := order }
    let b := { a with witness := w }
    let t := takeArrival s a
    let old := (s.source w.src).counters
    let new := (t.source w.src).counters
    let ended := t.merge.path = .idle ∧ t.merge.run = some (horizon t)
    let duplicate := ∃ r ∈ s.merge.window, ∃ x ∈ r.witnesses, x.src = w.src ∧ x.seq = w.seq
    let late := ∃ k, s.merge.settled = some k ∧ w.key.le k = true
    let moves := BatchMovesOn s t a.batch
    t.merge.arrivalOrder = order ∧
    (duplicate → t.merge.window = s.merge.window ∧ t.merge.late = s.merge.late ∧ ended ∧ moves 0 ∧
      new.folded = min (old.folded + 1) 4294967295) ∧
    (¬ duplicate → late → t.merge.window = s.merge.window ∧
      (∀ p, (s.source w.src).owner = some p → reports s p = true → hasCause t.ports[p].causes .lateRecords = true ∧
        t.ports[p].fired = (s.ports[p].fired || s.ring.up)) ∧
      (s.merge.late.length < 4096 → t.merge.path = .appending b ∧ t.batches = s.batches ∧ CountsShown t ∧
        t.merge.late = s.merge.late ++ [⟨w.time, w.unc, a.device, a.state, w.origin, w.src, w.seq, w.flags,
          s.merge.settled.getD w.key⟩] ∧ new.late = min (old.late + 1) 4294967295) ∧
      (4096 ≤ s.merge.late.length → t.merge.late = s.merge.late ∧ ended ∧ moves 1 ∧
        t.merge.lateDropped = min (s.merge.lateDropped + 1) 4294967295 ∧
        new.lateDropped = min (old.lateDropped + 1) 4294967295)) ∧
    (¬ duplicate → ¬ late → ∀ r, foldTarget b s.merge.window = some r →
      r ∈ s.merge.window ∧ r.device = a.device ∧ r.state = a.state ∧ (∀ x ∈ r.witnesses, x.src ≠ w.src) ∧
      timeDistance r.first.time w.time ≤ min (w.unc + r.first.unc) 20000 ∧
      (∀ r' ∈ s.merge.window, canTake b r' = true →
        timeDistance r.first.time w.time ≤ timeDistance r'.first.time w.time ∧
        (s.merge.window.Pairwise (fun x y => x.key.le y.key = true) →
          timeDistance r.first.time w.time = timeDistance r'.first.time w.time → r.key.le r'.key = true)) ∧
      t.merge.late = s.merge.late ∧ ended ∧ moves 0 ∧
      ∃ first rest, (first :: rest).Perm (w :: r.witnesses) ∧
        (r.witnesses.Pairwise (fun x y => y.better x = false) →
          (first :: rest).Pairwise (fun x y => y.better x = false)) ∧
        t.merge.window = insertRecord { r with first := first, others := rest.take 3 }
          (s.merge.window.filter fun x => decide (x.key ≠ r.key)) ∧
        (rest.length ≤ 3 → t.sources = s.sources) ∧
        (∀ x, rest[3]? = some x → (t.source x.src).counters = { (s.source x.src).counters with
          folded := min ((s.source x.src).counters.folded + 1) 4294967295 })) ∧
    (¬ duplicate → ¬ late → (∀ r ∈ s.merge.window, canTake b r = false) →
      (s.merge.window.length < 1024 →
        let clash := fun (r : WindowRecord) => decide (r.device = a.device ∧ r.state ≠ a.state ∧
          timeDistance w.time r.first.time ≤ w.unc + r.first.unc)
        let near := match lastChangeOf s a.device with
          | some c => decide (timeDistance w.time c.time ≤ w.unc + c.unc)
          | none => false
        t.merge.window = insertRecord ⟨a.device, a.state, s.merge.window.any clash || near, false, w, []⟩
          (s.merge.window.map fun r => if clash r then { r with ambiguous := true } else r) ∧
        t.merge.late = s.merge.late ∧ ended ∧ moves 0 ∧ CountsShown t) ∧
      (1024 ≤ s.merge.window.length → t.merge.late = s.merge.late ∧
        let held := s.directory.write ≠ none ∨ s.directory.due ≠ none ∨ s.journal.state = .rebuilding
        (4194304 ≤ s.journal.committed → t.merge.window = s.merge.window ∧ ended ∧
          new.rejected = min (old.rejected + 1) 4294967295 ∧
          (findBatch s a.batch = none → t.batches = s.batches) ∧
          ∀ x, findBatch s a.batch = some x → t.batches = s.batches.filter (fun y => y.serial != x.serial) ∧
            ∀ p c, findCommand s x.serial = some (p, c) →
              Ends s t x.serial p c.descriptor .journalFull x.taken x.rejected x.late) ∧
        (s.journal.committed < 4194304 → held → t.merge.window = s.merge.window ∧ t.sources = s.sources ∧
          t.batches = s.batches ∧ t.merge.waiting = s.merge.waiting ++ [b]) ∧
        (s.journal.committed < 4194304 → ¬ held → ∀ r rest, s.merge.window = r :: rest →
          t.merge.path = .forcing b ∧ t.batches = s.batches ∧ t.merge.window = { r with forced := true } :: rest ∧
          (∃ e, t.merge.writing = some e ∧ e.forced = true ∧ e.time = r.first.time ∧ e.device = r.device ∧
            e.newState = r.state) ∧
          t.arbiter = s.arbiter.submit .commitWriter [⟨.commitWriter, .c, .commitWrite, true⟩] ∧
          (t.source r.first.src).counters = { (s.source r.first.src).counters with
            forced := min ((s.source r.first.src).counters.forced + 1) 4294967295 })))

/-- A commit run (R41 to R43, R45, R54, R55). The settled horizon is the least max_time_seen less the slack over the
STREAMING sources that have one, unbounded where none has. While no entry is being written and commits are not held, the
lowest window record is committed when it lies within the run's horizon, at or below a flush's noted key, or a SEAL
commits the window; otherwise the run stops. The entry made takes prior state and mark from the commit image, REPEAT
where prior and new state are equal, the union of the witnesses' flags, and the witnesses best first. That the record
stays in the window while its entry is written, and that a run keeps the horizon of the event that started it: log entry
8. -/
def Obligations.CommitRunInKeyOrder : Prop :=
  (∀ s : State, Canonical s → match horizon s with
    | .unbounded => ∀ i, (s.source i).state = .streaming → (s.source i).maxTime = none
    | .upTo h => (∃ i t, (s.source i).state = .streaming ∧ (s.source i).maxTime = some t ∧ h = (t : Int) - s.journal.slack) ∧
        ∀ i t, (s.source i).state = .streaming → (s.source i).maxTime = some t → h ≤ (t : Int) - s.journal.slack) ∧
  (∀ s : State,
    let held := s.directory.write ≠ none ∨ s.directory.due ≠ none ∨ s.journal.committed = 4194304 ∨
      s.journal.state = .rebuilding
    let wanted := fun (r : WindowRecord) => s.merge.run = some .unbounded ∨
      (∃ h, s.merge.run = some (.upTo h) ∧ (r.first.time : Int) ≤ h) ∨
      (∃ f ∈ s.merge.flushes, r.key.le f.noted = true) ∨
      ∃ n clamped k, s.journal.reserved = some ⟨n, clamped, .sealing k⟩
    let stops := pumpCommits s = { s with merge := { s.merge with run := none } }
    (s.merge.writing ≠ none → pumpCommits s = s) ∧
    (s.merge.writing = none → s.merge.window = [] → stops) ∧
    (s.merge.writing = none → ∀ r rest, s.merge.window = r :: rest →
      (held ∨ ¬ wanted r → stops) ∧
      (¬ held → wanted r →
        let prior := s.merge.image.at r.device
        let ws := r.first :: r.others
        pumpCommits s = { s with
          arbiter := s.arbiter.submit .commitWriter [⟨.commitWriter, .c, .commitWrite, true⟩]
          merge := { s.merge with writing := some {
            time := r.first.time, unc := r.first.unc, device := r.device, newState := r.state
            priorState := prior.state, priorMark := prior.mark, isRepeat := decide (r.state = prior.state)
            ambiguous := r.ambiguous, forced := r.forced, origin := r.first.origin
            flags := ⟨ws.any fun x => x.flags.gap, ws.any fun x => x.flags.seqBack, ws.any fun x => x.flags.clamped,
              ws.any fun x => x.flags.codeFixed⟩
            witnesses := ws.map fun x => (x.src, x.seq) } } })))

/-- How a handed arrival reaches the Merge Unit (R35, R42, R45, R174). Where none is resumed, a handed arrival is taken
at once and then the commit run goes on, while an entry is being written too; there it waits for the write only when its
outcome may turn on it: its key is not above the entry's, the record being written could take it or contradicts it, or a
full window has no other place for it (log entry 8). An open path takes no other arrival. The arrivals that waited
behind a checkpoint write are resumed in order, the commit run going first, and no handed arrival is taken before all of
them have been; where that run has made another checkpoint due, they are resumed all the same. Each is tested again
against the settled key. The arrivals still to be resumed wait while they are paused by the hold that a resumed one's
forced commit has made. No handed arrival is left that need not wait. The order of arrivals of different batches, that a
flush's commits come before a waiting arrival is resumed, and that handed arrivals wait out the pause: log entry 26. -/
def Obligations.MergeTakesArrivals : Prop :=
  ∀ s : State,
    let after := fun (t : State) => checkSeal (endFlushes t)
    (∀ a, s.merge.path = .idle → s.merge.resuming = [] → s.merge.handed = [a] →
      let known := (∃ r ∈ s.merge.window, ∃ x ∈ r.witnesses, x.src = a.witness.src ∧ x.seq = a.witness.seq) ∨
        ∃ k, s.merge.settled = some k ∧ a.witness.key.le k = true
      let turns := fun (e : Entry) (r : WindowRecord) => a.witness.key.le e.key = true ∨ canTake a r = true ∨
        contradicts a r = true ∨ (1024 ≤ s.merge.window.length ∧ ∀ x ∈ s.merge.window, canTake a x = false)
      let taken := journalProceeds s = after (pumpCommits (takeArrival { s with merge := { s.merge with handed := [] } } a))
      (s.merge.writing = none → taken) ∧
      (∀ e r rest, s.merge.writing = some e → s.merge.window = r :: rest →
        (known ∨ ¬ turns e r → taken) ∧
        (¬ known → turns e r → journalProceeds s = after s))) ∧
    (s.merge.path ≠ .idle → journalProceeds s = after (pumpCommits s)) ∧
    (s.merge.path = .idle → s.merge.handed = [] → s.merge.resuming = [] → journalProceeds s = after (pumpCommits s)) ∧
    (∀ a rest, s.merge.path = .idle → s.merge.resuming = a :: rest →
      let run := if s.merge.run = none then s else pumpCommits s
      let blocked := run.merge.writing ≠ none ∨ run.merge.paused = true
      (blocked → journalProceeds s = after run) ∧
      (¬ blocked → journalProceeds s =
        journalProceeds (retestArrival { run with merge := { run.merge with resuming := rest } } a))) ∧
    (s.merge.resuming = [] → (mergeProceeds s).merge.path = .idle →
      ∀ a ∈ (mergeProceeds s).merge.handed, waitsForWrite (mergeProceeds s) a = true) ∧
    (∀ a, (isLate s a.witness.key = true → retestArrival s a = divertLate s a) ∧
      (isLate s a.witness.key = false → retestArrival s a = placeOrForce s a))

/-- The end of an entry's write (R43, R44): the entry stands at the committed position, the count rises by one, and the
commit image, the last committed change, the settled key, and a checkpoint falling due follow it; the part status page
shows the count, the occupancies and the settled key (R159); earlier positions stand as they were. A SEAL's first step
counts the entry (R55), one already being written when it started among them (log entry 34). The record being written
stays in the window until then (log entry 8). The views then meet the commit in increasing slot number (log entry 25),
and the Merge Unit goes on; an arrival that forced the commit is tested again first (R40, R46), the arrivals still to be
resumed being paused where a checkpoint is due (R45), and a FORMAT or TRUNCATE that waited for the write makes its
changes (log entry 9). The end of a late-list append (R48, R53, R170): the late arrival's path ends, its batch, which
counts it (log entry 10), goes on or completes, and a commit run follows (R42). -/
def Obligations.CommitAndAppendEnds : Prop :=
  (∀ (s : State) (e : Entry), WithinCapacity s → s.merge.writing = some e →
    channelEnds s .commitWriter .commitWrite = true →
    let k := s.journal.committed
    ∃ x : State,
      entryAt x k = e ∧ (∀ i < k, entryAt x i = entryAt s i) ∧ x.journal.committed = k + 1 ∧
      x.merge.window = s.merge.window.drop 1 ∧ x.merge.writing = none ∧ x.merge.settled = some e.key ∧
      (∀ d, x.merge.image.at d = if d = e.device then ⟨e.newState, e.ambiguous⟩ else s.merge.image.at d) ∧
      (∀ d, lastChangeOf x d = if d = e.device then some ⟨e.time, e.unc, k⟩ else lastChangeOf s d) ∧
      x.directory.due = (if (k + 1) % s.directory.interval = 0 then some (k + 1) else s.directory.due) ∧
      x.merge.flushes = s.merge.flushes.map (fun f => { f with committed := f.committed + 1 }) ∧
      CountsShown x ∧ SettledShown x ∧
      (∀ n clamped j, s.journal.reserved = some ⟨n, clamped, .sealing j⟩ →
        x.journal.reserved = some ⟨n, clamped, .sealing (j + 1)⟩) ∧
      x.sources = s.sources ∧ x.merge.late = s.merge.late ∧ x.catalogue = s.catalogue ∧ x.views = s.views ∧
      x.ports = s.ports ∧ x.directory.write = s.directory.write ∧ x.merge.waiting = s.merge.waiting ∧
      x.merge.resuming = s.merge.resuming ∧ x.merge.paused = s.merge.paused ∧
      let u := (List.finRange 8).foldl (viewAtCommit k) x
      exec .commitWriteEnd s = .next (match s.merge.path with
        | .forcing a => journalProceeds (retestArrival { u with merge := { u.merge with
            path := .idle
            paused := u.merge.paused || ((u.directory.write.isSome || u.directory.due.isSome) &&
              !u.merge.resuming.isEmpty) } } a)
        | _ => reservedAfterCommit (journalProceeds u))) ∧
  (∀ x : State, (∀ n clamped work, x.journal.reserved = some ⟨n, clamped, work⟩ →
      (∀ c i m, work ≠ .formatCommit c i m) ∧ ∀ t vs, work ≠ .truncateCommit t vs) → reservedAfterCommit x = x) ∧
  (∀ (s : State) (a : Arrival) (b : Batch), channelEnds s .lateWriter .lateAppend = true →
    s.merge.path = .appending a → findBatch s a.batch = some b →
    (b.taken < b.count → exec .lateAppendEnd s = .next (journalProceeds { s with
      arbiter := s.arbiter.finish
      batches := s.batches.map fun x => if x.serial = b.serial then { b with handed := false, late := b.late + 1 } else x
      merge := { s.merge with path := .idle, run := some (horizon s) } })) ∧
    (b.count ≤ b.taken → ∀ (p : PortId) (c : InFlight), findCommand s b.serial = some (p, c) →
      let u := { s with
        arbiter := s.arbiter.finish, batches := s.batches.filter fun x => x.serial != b.serial
        merge := { s.merge with path := .idle } }
      ∃ t, Ends u t b.serial p c.descriptor (if b.clamped then .clamped else .ok) b.taken b.rejected (b.late + 1) ∧
        OnlyEnds u t p ∧
        exec .lateAppendEnd s = .next (journalProceeds { t with merge := { t.merge with run := some (horizon t) } })))

/-! ### Flushing, sealing, truncating -/

/-- FLUSH while no reservation is held (R54): refused unless the journal is BUILDING, done at once on an empty window,
and otherwise the highest key in the window is noted and the Merge Unit goes on. It ends with OK and the commits counted
when no record is at or below the noted key, or with JOURNAL_FULL on a full journal, its records staying in the window.
SEAL once it may start (R55): refused unless the journal is BUILDING, and otherwise its first step begins. That step
ends on an empty window, or on a full journal, where each record left is discarded and counted as rejected. Every
STREAMING and DEFINED source is then ENDED, the journal is SEALED, the views at their edges are told in increasing slot
number (log entry 25), the part status page shows the journal state and the counts (R159), and the command completes
with the entries committed (an entry already being written when it started among them: log entry 34), the records
discarded and the committed count. -/
def Obligations.FlushAndSeal : Prop :=
  (∀ (s : State) (n : Nat) (p : PortId) (d : Descriptor), Taken s n .flush p d → reservationHeld s = false →
    (s.journal.state ≠ .building → Completes (.flush n) s s n p d .badState 0 0 0) ∧
    (s.journal.state = .building → s.merge.window = [] → Completes (.flush n) s s n p d .ok 0 0 0) ∧
    (s.journal.state = .building → ∀ r rest, s.merge.window = rest ++ [r] →
      exec (.flush n) s = .next (journalProceeds { markStarted s n with
        merge := { s.merge with flushes := s.merge.flushes ++ [⟨n, r.key, 0⟩] } }))) ∧
  (∀ (s : State) (f : FlushOp), s.merge.flushes = [f] →
    let done := ∀ r ∈ s.merge.window, r.key.le f.noted = false
    let u := { s with merge := { s.merge with flushes := [] } }
    (¬ done → s.journal.committed < 4194304 → endFlushes s = s) ∧
    (∀ p c, findCommand s f.serial = some (p, c) → done ∨ 4194304 ≤ s.journal.committed →
      ∃ result, (done → result = .ok) ∧ (¬ done → result = .journalFull) ∧ OnlyEnds u (endFlushes s) p ∧
        Ends u (endFlushes s) f.serial p c.descriptor result f.committed 0 0)) ∧
  (∀ (s : State) (n : Nat) (p : PortId) (d : Descriptor), Taken s n .seal p d → mayReserve s n = true →
    (s.journal.state ≠ .building → Completes (.seal n) s s n p d .badState 0 0 0) ∧
    (s.journal.state = .building → exec (.seal n) s = .next (journalProceeds { markStarted s n with
      journal := { s.journal with reserved := some ⟨n, false, .sealing 0⟩ } }))) ∧
  (∀ (s : State) (n : Nat) (clamped : Bool) (k : Nat), s.journal.reserved = some ⟨n, clamped, .sealing k⟩ →
    let full := 4194304 ≤ s.journal.committed
    (s.merge.writing ≠ none ∨ (s.merge.window ≠ [] ∧ ¬ full) → checkSeal s = s) ∧
    (s.merge.writing = none → s.merge.window = [] ∨ full → ∀ p c, findCommand s n = some (p, c) →
      (∀ (v : Slot) (st : StepOp), s.views[v].step = some st → st.serial ≠ n) →
      ∃ x : State,
        x = { s with
          ring := { s.ring with replica := x.ring.replica, own := x.ring.own }, sources := x.sources
          merge := { s.merge with window := [] }
          journal := { s.journal with state := .sealed, reserved := none } } ∧
        RingWordShown x ∧ CountsShown x ∧
        (∀ i, let left := s.merge.window.countP fun r => r.first.src == i
          (x.source i).state = (match (s.source i).state with
            | .defined | .streaming => .ended
            | st => st) ∧
          (x.source i).owner = (s.source i).owner ∧
          (left = 0 → (x.source i).counters = (s.source i).counters) ∧
          (left ≠ 0 → (x.source i).counters = { (s.source i).counters with
            rejected := min ((s.source i).counters.rejected + left) 4294967295 })) ∧
        let u := (List.finRange 8).foldl viewAtSeal x
        OnlyEnds u (checkSeal s) p ∧ Ends u (checkSeal s) n p c.descriptor
          (if s.merge.window = [] then .ok else .journalFull) k s.merge.window.length s.journal.committed))

/-- TRUNCATE once it may start (R57, R103): refused in other states than BUILDING and SEALED; otherwise the journal
moves to REBUILDING and every view that moves is stopped with TRUNCATED. The steps after it follow at once, or at the
end of the write of an entry in flight (log entry 9): the entries and the window records above the time are dropped,
STREAMING sources become DEFINED with max_time_seen absent, the late list is kept, every view above its new limit is
SEEKING to it, with a stop of its own unless step 1 stopped it, and the checkpoints above the count are freed (R71). The
rebuild then pins and loads the seek base of the count (R58, R69). Views are treated in increasing slot number (log
entry 25). The part status page shows the journal state, the counts and the checkpoint count (R159). That a view whose
context a PARK is copying counts as parked and stays: log entry 14. -/
def Obligations.TruncateRemovesTail : Prop :=
  (∀ (s : State) (n : Nat) (p : PortId) (d : Descriptor), Taken s n .truncate p d → mayReserve s n = true →
    (s.journal.state ≠ .building → s.journal.state ≠ .sealed → Completes (.truncate n) s s n p d .badState 0 0 0) ∧
    (s.journal.state = .building ∨ s.journal.state = .sealed →
      let time := min (d.field 8 8) 1099511627775
      let r : Reserved := ⟨n, decide (1099511627775 < d.field 8 8), .truncateCommit time (movingViews s)⟩
      ∃ x : State,
        (s.merge.writing ≠ none → exec (.truncate n) s = .next x) ∧
        (s.merge.writing = none → exec (.truncate n) s = .next (truncateSteps x r time (movingViews s))) ∧
        (∀ v : Slot, v ∈ movingViews s ↔ Moving s.views[v]) ∧
        x.journal = { s.journal with state := .rebuilding, reserved := some r } ∧ RingWordShown x ∧ x.merge = s.merge ∧
        x.sources = s.sources ∧ x.dram = s.dram ∧ x.directory = s.directory ∧ x.parked = s.parked ∧
        (∀ v : Slot, ¬ Moving s.views[v] → x.views[v] = s.views[v]) ∧
        (∀ v : Slot, Moving s.views[v] → let w := s.views[v]
          x.views[v].state = .held ∧ x.views[v].frame = none ∧ x.views[v].timer = none ∧
          x.views[v].ctx.lastStop = .truncated ∧ x.views[v].ctx.cursor = w.ctx.cursor ∧
          x.views[v].ctx.marks = w.ctx.marks ∧
          (1 ≤ deltaFree s v → x.views[v].producer = w.producer + 1 ∧
            Stands x (Config.deltaEntry v (w.producer.toNat % 4096)) (stopMarkBytes .truncated 0)) ∧
          (reports s w.ctx.owner = true → hasCause x.ports[w.ctx.owner].causes .viewStopped = true)))) ∧
  (∀ (x : State) (r : Reserved) (time : Nat) (stopped : List Slot),
    let count := (x.dram.journal.take x.journal.committed).countP fun e => decide (e.time ≤ time)
    let removed := x.journal.committed - count
    let limit := fun (c : ViewContext) => match c.windowEnd with
      | some e => (x.dram.journal.take count).countP fun y => decide (y.time ≤ e)
      | none => count
    let moves := fun (v : Slot) => x.views[v].state ≠ .free ∧ x.views[v].state ≠ .seeking ∧
      (∀ m i, CopyJob.park m v i ∉ x.copies) ∧ limit x.views[v].ctx < x.views[v].ctx.cursor
    let t := truncateSteps x r time stopped
    let discarded := x.merge.window.length - t.merge.window.length
    t.journal.state = x.journal.state ∧ t.journal.committed = count ∧ t.journal.slack = x.journal.slack ∧
    t.merge.window = x.merge.window.filter (fun y => decide (y.first.time ≤ time)) ∧
    t.merge.late = x.merge.late ∧ t.merge.settled = x.merge.settled ∧ t.merge.image = x.merge.image ∧ CountsShown t ∧
    (∀ i, t.source i = if (x.source i).state = .streaming then { x.source i with state := .defined, maxTime := none }
      else x.source i) ∧
    t.dram = x.dram ∧ t.parked = x.parked ∧ t.directory.interval = x.directory.interval ∧
    (∀ v : Slot, ¬ moves v → t.views[v] = x.views[v]) ∧
    (∀ v : Slot, moves v → let w := x.views[v]
      t.views[v].state = .seeking ∧ t.views[v].ctx.cursor = w.ctx.cursor ∧ t.views[v].ctx.marks = w.ctx.marks ∧
      t.views[v].seek = some ⟨none, .truncation, limit w.ctx, false, none, some w.ctx.cursor, .awaitingRebuild, false, 0⟩ ∧
      (v ∈ stopped → w.state = .held → t.views[v].ctx.lastStop = w.ctx.lastStop ∧ t.views[v].producer = w.producer) ∧
      (v ∉ stopped ∨ w.state ≠ .held → t.views[v].ctx.lastStop = .truncated ∧
        (1 ≤ deltaFree x v → t.views[v].producer = w.producer + 1 ∧
          Stands t (Config.deltaEntry v (w.producer.toNat % 4096)) (stopMarkBytes .truncated 0)) ∧
        (reports x w.ctx.owner = true → hasCause t.ports[w.ctx.owner].causes .viewStopped = true))) ∧
    (checkpointHold x = true → t.journal.reserved = some { r with work := .truncateDirectory removed discarded } ∧
      t.directory = x.directory) ∧
    (checkpointHold x = false → Canonical x →
      let base := seekBase x count
      ((∃ k, (x.slot k).state = .inUse ∧ (x.slot k).pos ≤ count) →
        t.journal.reserved = some { r with work := .rebuildLoading removed discarded base (x.slot base).pos }) ∧
      (∃ a : Arbiter, t.arbiter = a.submit .rebuild (requests .rebuild .b .rebuildLoad 16 true)) ∧ DirectoryShown t ∧
      (∀ k, (t.slot k).pins = if k = base then (x.slot k).pins + 1 else (x.slot k).pins) ∧
      (∀ k, (x.slot k).state = .inUse → count < (x.slot k).pos → (t.slot k).state = .free) ∧
      (∀ k, ¬ ((x.slot k).state = .inUse ∧ count < (x.slot k).pos) →
        (t.slot k).state = (x.slot k).state ∧ (t.slot k).pos = (x.slot k).pos))) ∧
  (∀ (x : State) (n : Nat) (clamped : Bool) (time : Nat) (stopped : List Slot),
    x.journal.reserved = some ⟨n, clamped, .truncateCommit time stopped⟩ →
    reservedAfterCommit x = truncateSteps x ⟨n, clamped, .truncateCommit time stopped⟩ time stopped)

/-- The end of the truncation rebuild (R58), where no truncated view has a seek to make: the commit image holds the
loaded checkpoint with the remaining entries applied, the settled key is that of the last entry, last committed changes
at or above the count are found again among the entries rolled or made absent, the journal is BUILDING, the part status
page shows it and the settled key (R159), TRUNCATED is present at every bound port, and the command completes with the
counts. The views that wait form their first frames in increasing slot number (log entry 25). -/
def Obligations.RebuildRestoresImage : Prop :=
  ∀ (s : State) (n : Nat) (clamped : Bool) (removed discarded base : Nat) (loaded : Image) (p : PortId) (c : InFlight),
    Canonical s → s.journal.reserved = some ⟨n, clamped, .rebuildRolling removed discarded base loaded⟩ →
    (base = s.journal.committed ∨ channelEnds s .rebuild .rebuildRoll = true) →
    (∀ v : Slot, s.views[v].seek = none) → findCommand s n = some (p, c) →
    let k := s.journal.committed
    ∃ u t, Ends u t n p c.descriptor (if clamped then .clamped else .ok) k removed discarded ∧ OnlyEnds u t p ∧
      exec .truncateRebuildEnd s = .next ((List.finRange 8).foldl viewAfterRebuild
        (journalProceeds { t with merge := { t.merge with run := some (horizon t) } })) ∧
      u.journal = { s.journal with state := .building, reserved := none } ∧
      u.merge.image = loaded.rollForward ((s.dram.journal.take k).drop base) ∧
      u.merge.settled = (if k = 0 then none else some (entryAt s (k - 1)).key) ∧ RingWordShown u ∧ SettledShown u ∧
      (∀ d, match lastChangeOf s d with
        | none => lastChangeOf u d = none
        | some x => if x.pos < k then lastChangeOf u d = some x else
            match lastChangeOf u d with
            | some y => base ≤ y.pos ∧ y.pos < k ∧ (entryAt s y.pos).device = d ∧ y.time = (entryAt s y.pos).time ∧
                y.unc = (entryAt s y.pos).unc ∧ ∀ j, y.pos < j → j < k → j < s.dram.journal.length → (entryAt s j).device ≠ d
            | none => ∀ j, base ≤ j → j < k → j < s.dram.journal.length → (entryAt s j).device ≠ d) ∧
      (∀ q : PortId, s.ports[q].bound.isSome = true → s.ports[q].detaching = false →
        hasCause u.ports[q].causes .truncated = true) ∧
      u.merge.window = s.merge.window ∧ u.merge.late = s.merge.late ∧ u.sources = s.sources ∧ u.dram = s.dram

/-- The seeks of truncated views (R104). When the commit image has been rebuilt, the seek of a view that step 2 moved to
SEEKING chooses its route from the cursor the view had: a roll from its own image when that is no farther than the seek
base, else a load that pins the base; the journal stays REBUILDING. The truncation completes only when no such seek is
in flight: the journal is BUILDING, TRUNCATED is present at every bound port, the command completes, a commit run
follows (R42, R58), and a RUNNING view without a frame then forms its first, without a gap (R103, R107), in increasing
slot number (log entry 25). The part status page shows the settled key, and then the journal state (R159). -/
def Obligations.TruncationSeeksEnd : Prop :=
  (∀ (s : State) (n : Nat) (clamped : Bool) (removed discarded base : Nat) (loaded : Image) (v : Slot) (k : SeekOp) (q : Nat),
    s.journal.reserved = some ⟨n, clamped, .rebuildRolling removed discarded base loaded⟩ →
    (base = s.journal.committed ∨ channelEnds s .rebuild .rebuildRoll = true) →
    s.views[v].seek = some k → k.phase = .awaitingRebuild → k.kind = .truncation → k.positioned = some q →
    (∀ x : Slot, x ≠ v → s.views[x].seek = none) →
    let b := seekBase s k.target
    let c := (s.slot b).pos
    let arb := if channelEnds s .rebuild .rebuildRoll = true then s.arbiter.finish else s.arbiter
    ∃ t, exec .truncateRebuildEnd s = .next t ∧
      t = { s with
        ring := { s.ring with replica := t.ring.replica, own := t.ring.own }
        journal := { s.journal with reserved := some ⟨n, clamped, .truncateSeeks removed discarded⟩ }
        merge := t.merge, directory := { s.directory with slots := t.directory.slots }
        views := s.views.set v t.views[v], arbiter := t.arbiter } ∧
      t.merge.image = loaded.rollForward ((s.dram.journal.take s.journal.committed).drop base) ∧
      t.merge.window = s.merge.window ∧ SettledShown t ∧
      (timeDistance k.target q ≤ k.target - c →
        t.views[v] = { s.views[v] with seek := some { k with phase := .rolling, loads := false, start := q } } ∧
        t.directory = s.directory ∧ t.arbiter = arb.submit (.view v) (rollRequests v (timeDistance k.target q))) ∧
      (k.target - c < timeDistance k.target q →
        t.views[v] = { s.views[v] with seek := some { k with phase := .loading b, loads := true, start := c } } ∧
        t.slot b = { s.slot b with pins := (s.slot b).pins + 1 } ∧ (∀ j, j ≠ b → t.slot j = s.slot j) ∧
        t.arbiter = arb.submit (.view v) (requests (.view v) .b .seekLoad 16 true))) ∧
  (∀ (s : State) (n : Nat) (clamped : Bool) (removed discarded : Nat),
    s.journal.reserved = some ⟨n, clamped, .truncateSeeks removed discarded⟩ →
    ((∃ (v : Slot) (k : SeekOp), s.views[v].seek = some k ∧ k.kind = .truncation) → checkTruncate s = s) ∧
    ((∀ (v : Slot) (k : SeekOp), s.views[v].seek = some k → k.kind ≠ .truncation) →
      ∀ p c, findCommand s n = some (p, c) →
      ∃ u t, u = { s with
          ring := { s.ring with replica := u.ring.replica, own := u.ring.own }, ports := u.ports
          journal := { s.journal with state := .building, reserved := none } } ∧ RingWordShown u ∧
        (∀ q : PortId, reports s q = true → hasCause u.ports[q].causes .truncated = true) ∧
        Ends u t n p c.descriptor (if clamped then .clamped else .ok) s.journal.committed removed discarded ∧
        OnlyEnds u t p ∧
        checkTruncate s = (List.finRange 8).foldl viewAfterRebuild
          (journalProceeds { t with merge := { t.merge with run := some (horizon t) } }))) ∧
  (∀ s : State, (∀ n clamped removed discarded,
    s.journal.reserved ≠ some ⟨n, clamped, .truncateSeeks removed discarded⟩) → checkTruncate s = s) ∧
  (∀ (s : State) (v : Slot), let w := s.views[v]
    (w.state = .running → w.frame = none → w.atEdge = false →
      viewAfterRebuild s v = formFrame (s.setView v { w with noGap := true }) v) ∧
    (w.state ≠ .running ∨ w.frame ≠ none ∨ w.atEdge = true → viewAfterRebuild s v = s))

/-! ### Checkpoints -/

/-- The start of a due checkpoint's write (R64 to R66): it takes the lowest FREE slot without a pin, and waits while
there is none; in a directory of 1,024 checkpoints the odd multiples of the interval are freed first, with their pins
kept, and the interval is doubled, the part status page showing the checkpoint count and the interval (R61, R159), and
the write then takes the lowest FREE slot without a pin, or waits while every freed slot is pinned. That the directory
is thinned at this row: log entry 13; that a freed slot has position 0: log entry 21. -/
def Obligations.CheckpointWriteStarts : Prop :=
  ∀ (s : State) (q : Nat), Canonical s → s.directory.due = some q → s.directory.write = none →
    (checkpointCount s ≠ 1024 → ∀ k, k < 1024 → (s.slot k).state = .free → (s.slot k).pins = 0 →
      (∀ j < k, ¬ ((s.slot j).state = .free ∧ (s.slot j).pins = 0)) →
      ∃ t, exec .checkpointWriteStart s = .next t ∧ t = { s with
          directory := { s.directory with slots := t.directory.slots, write := some ⟨k, q, false⟩, due := none }
          arbiter := s.arbiter.submit .checkpointWriter (requests .checkpointWriter .c .checkpointWrite 16 true) } ∧
        t.slot k = { state := .writing, pos := q, pins := 0 } ∧ ∀ j, j ≠ k → t.slot j = s.slot j) ∧
    (checkpointCount s ≠ 1024 → (∀ k < 1024, ¬ ((s.slot k).state = .free ∧ (s.slot k).pins = 0)) →
      exec .checkpointWriteStart s = .next s) ∧
    (checkpointCount s = 1024 →
      let odd := fun k => (s.slot k).state = .inUse ∧ (s.slot k).pos / s.directory.interval % 2 = 1
      let open_ := fun k => k < 1024 ∧ ((s.slot k).state = .free ∨ odd k) ∧ (s.slot k).pins = 0
      let thinned := fun k => if (s.slot k).state = .inUse ∧ (s.slot k).pos / s.directory.interval % 2 = 1
        then { state := .free, pos := 0, pins := (s.slot k).pins } else s.slot k
      ∃ t, exec .checkpointWriteStart s = .next t ∧
        t = { s with
          ring := { s.ring with replica := t.ring.replica, own := t.ring.own }
          directory := { t.directory with interval := 2 * s.directory.interval }, arbiter := t.arbiter } ∧
        DirectoryShown t ∧
        (∀ k, open_ k → (∀ j < k, ¬ open_ j) →
          t.directory.write = some ⟨k, q, false⟩ ∧ t.directory.due = none ∧
          t.slot k = { state := .writing, pos := q, pins := 0 } ∧ (∀ j, j ≠ k → t.slot j = thinned j) ∧
          t.arbiter = s.arbiter.submit .checkpointWriter (requests .checkpointWriter .c .checkpointWrite 16 true)) ∧
        ((∀ k, ¬ open_ k) → t.directory.write = none ∧ t.directory.due = some q ∧ t.arbiter = s.arbiter ∧
          ∀ k, t.slot k = thinned k))

/-- The end of a checkpoint write (R8, R45, R64, R72): the slot is IN_USE at its position and holds the commit image,
the part status page shows the checkpoint count, but for a rewrite, which leaves it as it is, and a move to BUILDING
(R61, R159), a FORMAT or LOAD_CATALOGUE that waited for it completes, a TRUNCATE goes on, and a FORMAT that waited for
another write writes checkpoint 0. The hold on commits ends with a commit run before the waiting arrivals are resumed,
in the order in which they began to wait, under a SEAL's first step too, and where a FORMAT or a TRUNCATE has not come
to its work on the directory; it goes on where a further checkpoint is due or is being written, and they wait on. That a
slot FORMAT frees has position 0: log entry 21. -/
def Obligations.CheckpointWriteEnds : Prop :=
  ∀ (s : State) (w : CheckpointWrite), channelEnds s .checkpointWriter .checkpointWrite = true →
    s.directory.write = some w →
    let holdEnds := fun (t : State) => journalProceeds { t with
      merge := { t.merge with
        run := some (horizon t), resuming := t.merge.waiting ++ t.merge.resuming, waiting := [], paused := false } }
    let written := fun (u : State) => u.slot w.slot = { state := .inUse, pos := w.pos, pins := (s.slot w.slot).pins } ∧
      u.slotImage w.slot = s.merge.image ∧ (∀ k, k ≠ w.slot → u.slot k = s.slot k ∧ u.slotImage k = s.slotImage k) ∧
      u.directory.write = none ∧ u.directory.due = s.directory.due ∧ u.directory.interval = s.directory.interval ∧
      (w.rewrites = false → DirectoryShown u) ∧
      u.arbiter = s.arbiter.finish ∧
      u.merge = s.merge ∧ u.journal.committed = s.journal.committed ∧ u.views = s.views ∧ u.sources = s.sources
    let commits := ∀ r, s.journal.reserved = some r → match r.work with
      | .formatDirectory _ | .formatCheckpoint | .catalogueCheckpoint _ | .truncateDirectory _ _ => False
      | _ => True
    (commits → s.directory.due = none → ∃ u, written u ∧ u.journal = s.journal ∧
      exec .checkpointWriteEnd s = .next (holdEnds u)) ∧
    (commits → s.directory.due ≠ none → ∃ u, written u ∧ u.journal = s.journal ∧ exec .checkpointWriteEnd s = .next u) ∧
    (s.directory.due = none → ∀ n clamped p c, s.journal.reserved = some ⟨n, clamped, .formatCheckpoint⟩ →
      findCommand s n = some (p, c) →
      ∃ u t, written u ∧ u.journal = { s.journal with state := .building, reserved := none } ∧ RingWordShown u ∧
        (∀ q : PortId, s.ports[q].bound.isSome = true → s.ports[q].detaching = false →
          hasCause u.ports[q].causes .truncated = true) ∧
        Ends u t n p c.descriptor (if clamped then .clamped else .ok) 0 0 0 ∧ OnlyEnds u t p ∧
        exec .checkpointWriteEnd s = .next (holdEnds t)) ∧
    (s.directory.due = none → ∀ n clamped l p c, s.journal.reserved = some ⟨n, clamped, .catalogueCheckpoint l⟩ →
      findCommand s n = some (p, c) →
      ∃ u t, written u ∧ u.journal = { s.journal with reserved := none } ∧
        Ends u t n p c.descriptor (if clamped then .clamped else .ok) l.written l.skipped l.repaired ∧ OnlyEnds u t p ∧
        exec .checkpointWriteEnd s = .next (holdEnds t)) ∧
    (s.directory.due = none →
      ∀ n clamped removed discarded, s.journal.reserved = some ⟨n, clamped, .truncateDirectory removed discarded⟩ →
      ∃ u, written u ∧ u.journal = s.journal ∧
        exec .checkpointWriteEnd s = .next (holdEnds (truncateDirectory u removed discarded))) ∧
    (Canonical s → ∀ n clamped i, s.journal.reserved = some ⟨n, clamped, .formatDirectory i⟩ →
      ∃ t, exec .checkpointWriteEnd s = .next t ∧
        t.journal = { s.journal with reserved := some ⟨n, clamped, .formatCheckpoint⟩ } ∧
        t.directory.interval = i ∧ t.directory.write = some ⟨0, 0, false⟩ ∧ t.directory.due = none ∧ DirectoryShown t ∧
        (∀ k, t.slot k = { state := if k = 0 then .writing else .free, pos := 0, pins := (s.slot k).pins }) ∧
        t.slotImage w.slot = s.merge.image ∧ t.merge = s.merge ∧ t.views = s.views ∧
        t.arbiter = s.arbiter.finish.submit .checkpointWriter (requests .checkpointWriter .c .checkpointWrite 16 true))

/-- The seek base of a position is an IN_USE checkpoint at or below it, and none is higher (R69). The end of a
checkpoint's load (R70, R86, R58): the view, or the truncation rebuild, takes the slot's image, the pin is released, and
the roll's requests are presented: a read and a write for each 64 entries of a view, a read for each 64 of the rebuild.
Where a due write waits because no FREE slot is without a pin, and this FREE slot loses its last one, the write takes it
in the same event and its copy begins (R65). -/
def Obligations.SeekBaseAndLoadEnd : Prop :=
  (∀ (s : State) (p k : Nat), Canonical s → (s.slot k).state = .inUse → (s.slot k).pos ≤ p →
    (s.slot (seekBase s p)).state = .inUse ∧ (s.slot (seekBase s p)).pos ≤ p ∧
      (s.slot k).pos ≤ (s.slot (seekBase s p)).pos) ∧
  (∀ (s : State) (slot : Nat),
    let takes := fun (q : Nat) => s.directory.due = some q ∧ s.directory.write = none ∧
      (∀ k < 1024, ¬ ((s.slot k).state = .free ∧ (s.slot k).pins = 0)) ∧
      slot < 1024 ∧ (s.slot slot).state = .free ∧ (s.slot slot).pins = 1
    let released := fun (t : State) (a : Arbiter) =>
      (∀ j, j ≠ slot → t.slot j = s.slot j) ∧
      (∀ q, takes q → t.slot slot = { state := .writing, pos := q, pins := 0 } ∧
        t.directory.write = some ⟨slot, q, false⟩ ∧ t.directory.due = none ∧
        a = s.arbiter.finish.submit .checkpointWriter (requests .checkpointWriter .c .checkpointWrite 16 true)) ∧
      ((∀ q, ¬ takes q) → t.slot slot = { s.slot slot with pins := (s.slot slot).pins - 1 } ∧
        t.directory.write = s.directory.write ∧ t.directory.due = s.directory.due ∧ a = s.arbiter.finish)
    (∀ (v : Slot) (k : SeekOp), channelEnds s (.view v) .seekLoad = true → s.views[v].seek = some k →
      k.phase = .loading slot →
      ∃ t a, exec (.checkpointLoadEnd (.view v)) s = .next t ∧ released t a ∧ t = { s with
        views := s.views.set v { s.views[v] with seek := some { k with phase := .rolling } }
        dram := { s.dram with viewImages := s.dram.viewImages.set v (s.slotImage slot) }
        directory := { t.directory with interval := s.directory.interval }
        arbiter := a.submit (.view v) (rollRequests v (k.target - k.start)) }) ∧
    (∀ (n : Nat) (clamped : Bool) (removed discarded base : Nat), channelEnds s .rebuild .rebuildLoad = true →
      s.journal.reserved = some ⟨n, clamped, .rebuildLoading removed discarded slot base⟩ →
      ∃ t a, exec (.checkpointLoadEnd .rebuild) s = .next t ∧ released t a ∧ t = { s with
        journal := { s.journal with
          reserved := some ⟨n, clamped, .rebuildRolling removed discarded base (s.slotImage slot)⟩ }
        directory := { t.directory with interval := s.directory.interval }
        arbiter := a.submit .rebuild
          (requests .rebuild .b .rebuildRoll ((s.journal.committed - base + 63) / 64) true) }))

/-! ### Views -/

/-- The checks on a source command, in their order (R12), with the states that take each (R11): the first that fails
decides the result, and nothing changes. That DEFINE_SOURCE of another port's STREAMING source is SOURCE_OWNED: log
entry 32. The checks on a view command's slot, in their order (R76): a slot above 7 or FREE is BAD_TARGET, another
port's view is NOT_OWNER, and a command for a SEEKING view waits. -/
def Obligations.ChecksInOrder : Prop :=
  (∀ (s : State) (n : Nat) (p : PortId) (d : Descriptor) (k : CommandKind) (i : Instr),
    (k, i) ∈ [(CommandKind.defineSource, Instr.defineSource n), (.claimSource, .claimSource n),
      (.releaseSource, .releaseSource n), (.endSource, .endSource n), (.anchorSource, .anchorSource n)] →
    Taken s n k p d →
    (s.journal.state = .unformatted → Completes i s s n p d .badState 0 0 0) ∧
    (s.journal.state ≠ .unformatted → 255 < d.target → Completes i s s n p d .badTarget 0 0 0) ∧
    (s.journal.state ≠ .unformatted → d.target ≤ 255 → (∃ q, (s.source d.target).owner = some q ∧ q ≠ p) →
      Completes i s s n p d .sourceOwned 0 0 0) ∧
    (NamesSource s p d →
      (k = .defineSource ∧ (s.source d.target).state = .streaming) ∨
      (k ≠ .defineSource ∧ (s.source d.target).state = .undefined) ∨
      (k = .anchorSource ∧ (s.source d.target).state = .ended) → Completes i s s n p d .badState 0 0 0)) ∧
  (∀ (s : State) (n : Nat) (p : PortId) (d : Descriptor) (k : CommandKind) (i : Instr),
    (k, i) ∈ [(CommandKind.seek, Instr.seek n), (.returnMark, .returnMark n), (.exchange, .exchange n),
      (.mark, .mark n), (.park, .park n), (.closeView, .closeView n), (.run, .run n), (.hold, .hold n), (.step, .step n),
      (.setPace, .setPace n), (.setStops, .setStops n), (.setFilter, .setFilter n), (.publish, .publish n)] →
    (k ∈ [CommandKind.seek, .returnMark, .exchange] → reservationHeld s = false) → Taken s n k p d →
    (7 < d.target → Completes i s s n p d .badTarget 0 0 0) ∧
    ∀ v : Slot, d.target = v.val →
      (s.views[v].state = .free → Completes i s s n p d .badTarget 0 0 0) ∧
      (s.views[v].state ≠ .free → s.views[v].ctx.owner ≠ p → Completes i s s n p d .notOwner 0 0 0) ∧
      (s.views[v].state = .seeking → s.views[v].ctx.owner = p → exec i s = .next s))

/-- OPEN_VIEW while no reservation is held (R75, R78, R84, R86, R122): its checks; the view placed in the lowest FREE
slot, SEEKING to its base, with the context OPEN_VIEW sets and an empty delta ring; and the load that pins the base's
checkpoint. -/
def Obligations.OpenViewPlacesView : Prop :=
  ∀ (s : State) (n : Nat) (p : PortId) (d : Descriptor), Taken s n .openView p d → reservationHeld s = false →
    (s.journal.state = .unformatted → Completes (.openView n) s s n p d .badState 0 0 0) ∧
    (s.journal.state ≠ .unformatted → (∀ v : Slot, s.views[v].state ≠ .free) →
      Completes (.openView n) s s n p d .noSlot 0 0 0) ∧
    (s.journal.state ≠ .unformatted → ∀ v : Slot, s.views[v].state = .free → (∀ w : Slot, w < v → s.views[w].state ≠ .free) →
      let start := min (d.field 8 8) 1099511627775
      let limit := if d.field 16 8 = 18446744073709551615 then none else some (max start (min (d.field 16 8) 1099511627775))
      let base := (s.dram.journal.take s.journal.committed).countP fun e => decide (e.time < start)
      let k := seekBase s base
      ∃ t, exec (.openView n) s = .next t ∧
        t.views[v] = { state := .seeking, producer := s.indexAt (Config.deltaConsumerAddr p v), lostMarks := 0
                       ctx := { owner := p, windowStart := start, windowEnd := limit, cursor := base, cursorTime := start
                                width := d.field 24 2 }
                       seek := some ⟨some n, .openView, base, windowClamped (d.field 8 8) (d.field 16 8), none, none,
                         .loading k, true, (s.slot k).pos⟩ } ∧
        t = { markStarted s n with
          ring := { s.ring with replica := t.ring.replica, own := t.ring.own }
          views := s.views.set v t.views[v]
          directory := { s.directory with slots := t.directory.slots }
          arbiter := s.arbiter.submit (.view v) (requests (.view v) .b .seekLoad 16 true) } ∧
        t.slot k = { s.slot k with pins := (s.slot k).pins + 1 } ∧ (∀ j, j ≠ k → t.slot j = s.slot j) ∧
        Stands t (Config.viewStatusAddr v) (viewStatusBytes t.views[v]) ∧
        (∀ a, ¬ InBytes a (Config.viewStatusAddr v) 64 → t.byteAt a = s.byteAt a))

/-- SEEK and RETURN while no reservation is held (R85, R86, R88, R96): the target is clamped to the window, a view that
moves is brought to HELD without a stop, the view is SEEKING, and the route is a roll from its own image when that is no
farther than the seek base, else a load that pins the base. RETURN takes its mark off; on an empty stack it is EMPTY. -/
def Obligations.SeekChoosesRoute : Prop :=
  ∀ (s : State) (n : Nat) (p : PortId) (d : Descriptor) (v : Slot), reservationHeld s = false → NamesView s p d v →
    let w := s.views[v]
    let seeks := fun (i : Instr) (asked : Nat) (width : Option Nat) (marks : List Nat) =>
      let target := clampTarget s w.ctx asked
      let k := seekBase s target
      let c := (s.slot k).pos
      let arb := if w.state = .running ∨ w.state = .stalled then s.arbiter.withdrawFrame v else s.arbiter
      ∃ t, exec i s = .next t ∧
        t = { markStarted s n with
          ring := { s.ring with replica := t.ring.replica, own := t.ring.own }
          views := s.views.set v t.views[v]
          directory := { s.directory with slots := t.directory.slots }, arbiter := t.arbiter } ∧
        (∀ a, ¬ InBytes a (Config.viewStatusAddr v) 64 → t.byteAt a = s.byteAt a) ∧
        t.views[v].state = .seeking ∧ t.views[v].ctx = { w.ctx with marks := marks, budget := 0 } ∧
        t.views[v].producer = w.producer ∧ t.views[v].lostMarks = w.lostMarks ∧ t.views[v].noGap = true ∧
        (Moving w → t.views[v].frame = none ∧ t.views[v].timer = none) ∧
        (if timeDistance target w.ctx.cursor ≤ target - c then
          t.views[v].seek = some ⟨some n, .seek, target, decide (target ≠ asked), width, some w.ctx.cursor, .rolling, false,
            w.ctx.cursor⟩ ∧ t.directory = s.directory ∧
          t.arbiter = arb.submit (.view v) (rollRequests v (timeDistance target w.ctx.cursor))
        else
          t.views[v].seek = some ⟨some n, .seek, target, decide (target ≠ asked), width, some w.ctx.cursor, .loading k, true,
            c⟩ ∧ t.slot k = { s.slot k with pins := (s.slot k).pins + 1 } ∧ (∀ j, j ≠ k → t.slot j = s.slot j) ∧
          t.arbiter = arb.submit (.view v) (requests (.view v) .b .seekLoad 16 true))
    (Taken s n .seek p d → seeks (.seek n) (if d.field 8 1 = 0 then d.field 16 8 else countUpTo s (d.field 16 8))
      (if d.field 9 1 = 0 then none else some (d.field 10 2)) w.ctx.marks) ∧
    (Taken s n .returnMark p d → w.ctx.marks = [] → Completes (.returnMark n) s s n p d .empty 0 0 0) ∧
    (Taken s n .returnMark p d → ∀ m rest, w.ctx.marks = m :: rest → seeks (.returnMark n) m none rest)

/-- The end of a seek (R79, R80, R87, R124, R132): the image at the target stands in the view. Where the window's base
has risen above the target, the view is carried forward to it, entry by entry, before it is HELD: for each entry the
cursor rises by one at the window start, the counter by 2, and the writes are handed over in the order counter odd,
changed words (R131), counter even, status record. Then the counter rises by 2, the view is HELD, and the command
completes with the details of its kind. A published view's last writes are handed over in the order counter odd, whole
image, counter even, SEEK_MARK, status record, and an unpublished view's in the order SEEK_MARK, status record. Two
class B requests for each carry: log entry 12. Changed words in rising addresses, one write each: log entry 19. Carried
entries are not counted as applied: log entry 16. -/
def Obligations.SeekEndsHeld : Prop :=
  ∀ (s : State) (v : Slot) (k : SeekOp), s.views[v].seek = some k → seekReached s v = true →
    let w := s.views[v]
    let base := windowBase s w.ctx
    let carries := base - k.target
    let cursor := k.target + carries
    let image := fun (i : Nat) =>
      (rollImage s s.dram.viewImages[v] k.start k.target).rollForward (entriesBetween s k.target (k.target + i))
    let time := if cursor ≤ base then w.ctx.windowStart else (entryAt s (cursor - 1)).time
    let context := fun (i at_ : Nat) (rise : Nat) => { w.ctx with
      cursor := k.target + i, cursorTime := at_, width := k.newWidth.getD w.ctx.width
      counter := w.ctx.counter + BitVec.ofNat 32 rise }
    ∃ u : State,
      u = { s with
        ring := { s.ring with replica := u.ring.replica, own := u.ring.own }, ports := u.ports, views := u.views
        dram := { s.dram with viewImages := s.dram.viewImages.set v (image carries) }
        arbiter := (List.range carries).foldl
          (fun a _ => a.submit (.view v) [⟨.view v, .b, .carry, false⟩, ⟨.view v, .b, .carry, false⟩])
          (if channelEnds s (.view v) .seekRoll then s.arbiter.finish else s.arbiter) } ∧
      (deltaDistance s v ≤ 4096 → u.ports = s.ports) ∧
      u.views[v] = { w with
        state := .held, seek := none, producer := u.views[v].producer, lostMarks := u.views[v].lostMarks
        ctx := context carries time (2 * carries + 2) } ∧
      (∀ x : Slot, x ≠ v → u.views[x] = s.views[x]) ∧
      Stands u (Config.viewStatusAddr v) (viewStatusBytes u.views[v]) ∧
      (w.ctx.published = true → Stands u (Config.imageAddr v) (imageBytes (image carries) 0 32768)) ∧
      (1 ≤ deltaFree s v → u.views[v].producer = w.producer + 1 ∧ u.views[v].lostMarks = w.lostMarks ∧
        Stands u (Config.deltaEntry v (w.producer.toNat % 4096)) (seekMarkBytes cursor time)) ∧
      (deltaFree s v = 0 → u.views[v].producer = w.producer ∧ u.views[v].lostMarks = min (w.lostMarks + 1) 65535) ∧
      (s.ring.up = true → 1 ≤ deltaFree s v → ∃ words : Nat → List Nat,
        (∀ i < carries, (words i).Pairwise (· < ·) ∧
          ∀ j, j ∈ words i ↔ imageBytes (image i) (8 * j) 8 ≠ imageBytes (image (i + 1)) (8 * j) 8) ∧
        let counter := fun (rise : Nat) =>
          (Config.viewStatusAddr v, leBytes 4 (w.ctx.counter + BitVec.ofNat 32 rise).toNat ++ zeros 4)
        let carry := fun (i : Nat) => (if w.ctx.published then
            [counter (2 * i + 1)] ++ (words i).map (fun j => (Config.imageAddr v + 8 * j, imageBytes (image (i + 1)) (8 * j) 8)) ++
              [counter (2 * i + 2)] else []) ++
          [(Config.viewStatusAddr v, viewStatusBytes { w with ctx := context (i + 1) w.ctx.windowStart (2 * i + 2) })]
        u.ring.own = s.ring.own ++ writesOf s.ring.node ((List.range carries).flatMap carry ++
          (if w.ctx.published then [counter (2 * carries + 1), (Config.imageAddr v, imageBytes (image carries) 0 32768),
            counter (2 * carries + 2)] else []) ++
          [(Config.deltaEntry v (w.producer.toNat % 4096), seekMarkBytes cursor time),
            (Config.viewStatusAddr v, viewStatusBytes u.views[v])])) ∧
      (k.serial = none → exec (.seekEnd v) s = .next (checkTruncate u)) ∧
      (∀ n p c, k.serial = some n → findCommand s n = some (p, c) →
        ∃ t, exec (.seekEnd v) s = .next (checkTruncate t) ∧ OnlyEnds u t p ∧
          Ends u t n p c.descriptor (if k.clamped then .clamped else .ok)
            (if k.kind = .openView then v.val else cursor)
            (if k.kind = .openView then cursor else if k.kind = .resume then v.val else if k.loads then 1 else 0)
            (if k.kind = .openView then windowLimit s w.ctx else timeDistance k.start k.target))

/-- RESUME and EXCHANGE while no reservation is held (R86, R97, R99, R100): the checks on the parked id; RESUME's
context goes into the lowest FREE slot with an empty delta ring and its entry is emptied; EXCHANGE's two contexts change
places and the delta ring is kept. The view is SEEKING to the saved cursor, clamped to its window, and its route is
chosen at once, a load pinning its checkpoint; its requests follow the copy. PARK (R98): with no empty parked entry it
is NO_SLOT; otherwise a moving view is stopped with HOLD_CMD, and the copy of the view's context into the lowest one is
asked for: until it ends the slot holds the view and the entry is empty. The end of a parked-context copy (R98 to R100,
R170, R174): PARK's entry holds the context, the slot is FREE with its status record so written, and the command
completes with the parked id; RESUME or EXCHANGE goes on with its seek. That RESUME and EXCHANGE place the context and
empty the entry when they are taken, that PARK saves the context as it stands at its copy's end, and that an entry
promised to a PARK in flight counts as filled for another: log entry 14. -/
def Obligations.ParkResumeExchange : Prop :=
  (∀ (s : State) (n : Nat) (p : PortId) (d : Descriptor), reservationHeld s = false →
    (Taken s n .resume p d →
      (63 < d.target ∨ s.parkedEntry d.target = none → Completes (.resume n) s s n p d .badTarget 0 0 0) ∧
      ∀ c, d.target ≤ 63 → s.parkedEntry d.target = some c →
        (c.owner ≠ p → Completes (.resume n) s s n p d .notOwner 0 0 0) ∧
        (c.owner = p → (∀ v : Slot, s.views[v].state ≠ .free) → Completes (.resume n) s s n p d .noSlot 0 0 0) ∧
        (c.owner = p → ∀ v : Slot, s.views[v].state = .free → (∀ w : Slot, w < v → s.views[w].state ≠ .free) →
          let target := clampTarget s c c.cursor
          let b := seekBase s target
          ∃ t, exec (.resume n) s = .next t ∧
            t.views[v] = { state := .seeking, ctx := { c with budget := 0 }, lostMarks := 0
                           producer := s.indexAt (Config.deltaConsumerAddr p v)
                           seek := some ⟨some n, .resume, target, decide (target ≠ c.cursor), none, none, .routed (some b),
                             true, (s.slot b).pos⟩ } ∧
            t = { markStarted s n with
              ring := { s.ring with replica := t.ring.replica, own := t.ring.own }
              views := s.views.set v t.views[v], parked := t.parked, copies := s.copies ++ [.restore v]
              directory := { s.directory with slots := t.directory.slots }
              arbiter := s.arbiter.submit .contextCopier [⟨.contextCopier, .d, .contextCopy, true⟩] } ∧
            t.slot b = { s.slot b with pins := (s.slot b).pins + 1 } ∧ (∀ j, j ≠ b → t.slot j = s.slot j) ∧
            t.parkedEntry d.target = none ∧ (∀ i, i ≠ d.target → t.parkedEntry i = s.parkedEntry i) ∧
            (∀ a, ¬ InBytes a (Config.viewStatusAddr v) 64 → t.byteAt a = s.byteAt a))) ∧
    (Taken s n .exchange p d → ∀ v : Slot, NamesView s p d v →
      (63 < d.target2 ∨ s.parkedEntry d.target2 = none → Completes (.exchange n) s s n p d .badTarget 0 0 0) ∧
      ∀ c, d.target2 ≤ 63 → s.parkedEntry d.target2 = some c →
        (c.owner ≠ p → Completes (.exchange n) s s n p d .notOwner 0 0 0) ∧
        (c.owner = p →
          let w := s.views[v]
          let target := clampTarget s c c.cursor
          let b := seekBase s target
          let rolls := timeDistance target w.ctx.cursor ≤ target - (s.slot b).pos
          ∃ t, exec (.exchange n) s = .next t ∧
            (¬ Moving w → t.parkedEntry d.target2 = some w.ctx ∧ t.views[v].producer = w.producer) ∧
            (Moving w → t.parkedEntry d.target2 = some { w.ctx with
              lastStop := .holdCmd, budget := if w.step = none then w.ctx.budget else 0 }) ∧
            (∀ i, i ≠ d.target2 → t.parkedEntry i = s.parkedEntry i) ∧
            t.views[v].state = .seeking ∧ t.views[v].ctx = { c with budget := 0 } ∧
            (rolls → t.directory = s.directory ∧ t.views[v].seek = some ⟨some n, .exchange, target,
              decide (target ≠ c.cursor), none, some w.ctx.cursor, .routed none, false, w.ctx.cursor⟩) ∧
            (¬ rolls → t.slot b = { s.slot b with pins := (s.slot b).pins + 1 } ∧ (∀ j, j ≠ b → t.slot j = s.slot j) ∧
              t.views[v].seek = some ⟨some n, .exchange, target, decide (target ≠ c.cursor), none, some w.ctx.cursor,
                .routed (some b), true, (s.slot b).pos⟩) ∧
            (∀ x : Slot, x ≠ v → t.views[x] = s.views[x]) ∧ t.copies = s.copies ++ [.restore v] ∧
            t.journal = s.journal ∧ t.merge = s.merge ∧ t.sources = s.sources ∧ t.dram = s.dram))) ∧
  (∀ (s : State) (n : Nat) (p : PortId) (d : Descriptor) (v : Slot), Taken s n .park p d → NamesView s p d v →
    let filled := fun (i : Nat) => s.parkedEntry i ≠ none ∨ ∃ m x, CopyJob.park m x i ∈ s.copies
    ((∀ i < 64, filled i) → Completes (.park n) s s n p d .noSlot 0 0 0) ∧
    (∀ i < 64, ¬ filled i → (∀ j < i, filled j) →
      let w := s.views[v]
      let asked := fun (a : Arbiter) => a.submit .contextCopier [⟨.contextCopier, .d, .contextCopy, true⟩]
      (¬ Moving w → exec (.park n) s = .next { markStarted s n with
        copies := s.copies ++ [.park n v i], arbiter := asked s.arbiter }) ∧
      (Moving w → ∃ t, exec (.park n) s = .next t ∧
        t.views[v].state = .held ∧ t.views[v].frame = none ∧ t.views[v].timer = none ∧ t.views[v].step = none ∧
        t.views[v].ctx = { w.ctx with
          lastStop := .holdCmd, budget := if w.step = none then w.ctx.budget else 0 } ∧
        (1 ≤ deltaFree s v → t.views[v].producer = w.producer + 1 ∧
          Stands t (Config.deltaEntry v (w.producer.toNat % 4096)) (stopMarkBytes .holdCmd 0)) ∧
        (∀ x : Slot, x ≠ v → t.views[x] = s.views[x]) ∧
        t.copies = s.copies ++ [.park n v i] ∧ t.parked = s.parked ∧ t.journal = s.journal ∧ t.merge = s.merge ∧
        t.sources = s.sources ∧ t.dram = s.dram ∧ t.directory = s.directory ∧
        t.arbiter = asked (s.arbiter.withdrawFrame v)))) ∧
  (∀ (s : State) (rest : List CopyJob), channelEnds s .contextCopier .contextCopy = true →
    let u := { s with copies := rest, arbiter := s.arbiter.finish }
    (∀ n v i p c, s.copies = .park n v i :: rest → findCommand s n = some (p, c) →
      ∃ f : State, f = { u with
          ring := { s.ring with replica := f.ring.replica, own := f.ring.own }
          views := s.views.set v { producer := s.views[v].producer }, parked := f.parked
          arbiter := u.arbiter.withdrawFrame v } ∧
        f.parkedEntry i = some s.views[v].ctx ∧ (∀ j, j ≠ i → f.parkedEntry j = s.parkedEntry j) ∧
        Stands f (Config.viewStatusAddr v) (viewStatusBytes f.views[v]) ∧
        (∀ a, ¬ InBytes a (Config.viewStatusAddr v) 64 → f.byteAt a = s.byteAt a) ∧
        Completes .parkedContextCopyEnd s f n p c.descriptor .ok i 0 0) ∧
    (∀ v k, s.copies = .restore v :: rest → s.views[v].seek = some k →
      (∀ b, k.phase = .routed (some b) → exec .parkedContextCopyEnd s = .next { u with
        views := s.views.set v { s.views[v] with seek := some { k with phase := .loading b } }
        arbiter := u.arbiter.submit (.view v) (requests (.view v) .b .seekLoad 16 true) }) ∧
      (k.phase = .routed none → exec .parkedContextCopyEnd s = .next { u with
        views := s.views.set v { s.views[v] with seek := some { k with phase := .rolling } }
        arbiter := u.arbiter.submit (.view v) (rollRequests v (timeDistance k.target k.start)) })))

/-- MARK and SET_PACE (R95, R106): the cursor is pushed, the oldest of 8 marks giving way; the pace mode, the speed code
and the quiet limit are written, each clamped to its range. CLOSE_VIEW (R101): the frame, the timer and the context are
discarded, and the slot's status record is written as FREE; the delta ring's producer index stands. SET_STOPS (R115):
the break time, the watch list and the stop-on-ambiguous setting come from the stop block; a device the catalogue does
not have is left out, one named twice is kept once, and a changed break time clears the break arming and is told to a
frame that is being delayed (R116). That the second detail counts the namings that the catalogue lacks, each time, and
no second naming: log entry 16. SET_FILTER (R126, R129): the ranges and the kind set come from the filter block, station
numbers clamped and empty ranges left out; a block's move alone gives no CLAMPED; a STALLED view's room test is made
again after the completion has been written (log entry 20), without a status record of its own when it passes (log entry
19). -/
def Obligations.MarksSettingsAndClose : Prop :=
  (∀ (s : State) (n : Nat) (p : PortId) (d : Descriptor) (v : Slot), NamesView s p d v →
    let w := s.views[v]
    (Taken s n .mark p d →
      let marks := (w.ctx.cursor :: w.ctx.marks).take 8
      Completes (.mark n) s (s.setView v { w with ctx := { w.ctx with marks := marks } }) n p d .ok w.ctx.cursor
        marks.length 0) ∧
    (Taken s n .setPace p d → ∀ (code : Int) (speed : Int) (limit : Nat),
      code = (if d.field 9 1 < 128 then (d.field 9 1 : Int) else (d.field 9 1 : Int) - 256) →
      speed = max (-6) (min code 6) → limit = max 1000 (min (d.field 12 4) 60000000) →
      Completes (.setPace n) s (s.setView v { w with ctx := { w.ctx with
        mode := if d.field 8 1 = 0 then .paced else .flat, speed := speed, quiet := limit } }) n p d
        (if speed = code ∧ limit = d.field 12 4 then .ok else .clamped) 0 0 0)) ∧
  (∀ (s : State) (n : Nat) (p : PortId) (d : Descriptor) (v : Slot), Taken s n .closeView p d → NamesView s p d v →
    ∃ u, u = { s with
        ring := { s.ring with replica := u.ring.replica, own := u.ring.own }
        views := s.views.set v { producer := s.views[v].producer }, arbiter := s.arbiter.withdrawFrame v } ∧
      Stands u (Config.viewStatusAddr v) (viewStatusBytes { producer := s.views[v].producer }) ∧
      (∀ a, ¬ InBytes a (Config.viewStatusAddr v) 64 → u.byteAt a = s.byteAt a) ∧
      Completes (.closeView n) s u n p d .ok 0 0 0) ∧
  (∀ (s : State) (n : Nat) (p : PortId) (d : Descriptor) (v : Slot), Taken s n .setStops p d → NamesView s p d v →
    let w := s.views[v]
    let a := stagingAddr p (blockPosition 48 d.position)
    let b := readStopBlock s.ring.replica a
    let named := b.devices.take (min b.watchCount 16)
    let brk := if b.breakPresent then some (min b.breakTime 1099511627775) else none
    ∃ watch, watch.Nodup ∧ (∀ x, x ∈ watch ↔ x ∈ named ∧ x < s.journal.deviceCount) ∧ watch.Sublist named ∧
      Completes (.setStops n) s (s.setView v { w with
        armed := if brk = w.ctx.breakTime then w.armed else none
        frame := if brk = w.ctx.breakTime then w.frame else w.frame.map fun f => { f with phase := match f.phase with
          | .delaying _ => .delaying true
          | k => k }
        ctx := { w.ctx with breakTime := brk, watch := watch, stopAmbiguous := b.stopAmbiguous } }) n p d
        (if 512000 < 8 * d.position + 48 ∨ 16 < b.watchCount ∨ (b.breakPresent = true ∧ 1099511627775 < b.breakTime) ∨
          watch.length < named.length then .clamped else .ok)
        watch.length (named.countP fun x => decide (s.journal.deviceCount ≤ x)) 0) ∧
  (∀ (s : State) (n : Nat) (p : PortId) (d : Descriptor) (v : Slot), Taken s n .setFilter p d → NamesView s p d v →
    let w := s.views[v]
    let b := readFilterBlock s.ring.replica (stagingAddr p (blockPosition 40 d.position))
    let named := b.ranges.take (min b.rangeCount 8)
    let ranges := (named.map fun r => (min r.1 4095, min r.2 4095)).filter fun r => decide (r.1 ≤ r.2)
    let u := s.setView v { w with ctx := { w.ctx with ranges := ranges, kinds := b.kinds } }
    ∃ t, OnlyEnds u t p ∧ Ends u t n p d
        (if 8 < b.rangeCount ∨ (∃ r ∈ named, 4095 < r.1 ∨ 4095 < r.2) ∨
          ranges.length < named.length then .clamped else .ok) ranges.length (named.length - ranges.length) 0 ∧
      exec (.setFilter n) s = .next (if w.state = .stalled then retryStalled t v else t))

/-- PUBLISH (R132): on, the writes are handed over in the order counter at its next value, whole image in increasing
addresses, counter at the value after it, status record; off, no image word is written and the counter stands. The
command completes with the counter. An even counter thus reads odd while the image is written. -/
def Obligations.PublishWritesImage : Prop :=
  ∀ (s : State) (n : Nat) (p : PortId) (d : Descriptor) (v : Slot), Taken s n .publish p d → NamesView s p d v →
    let w := s.views[v]
    let on := d.field 8 1 != 0
    let counter := if on then w.ctx.counter + 2 else w.ctx.counter
    ∃ u, u = { s with
        ring := { s.ring with replica := u.ring.replica, own := u.ring.own }
        views := s.views.set v { w with ctx := { w.ctx with published := on, counter := counter } } } ∧
      (on = true → Stands u (Config.imageAddr v) (imageBytes s.dram.viewImages[v] 0 32768)) ∧
      (∀ a, ¬ InBytes a (Config.viewStatusAddr v) 64 → (on = false ∨ ¬ InBytes a (Config.imageAddr v) 32768) →
        u.byteAt a = s.byteAt a) ∧
      Stands u (Config.viewStatusAddr v) (viewStatusBytes u.views[v]) ∧
      (s.ring.up = true →
        let value := fun (i : BitVec 32) => leBytes 4 (w.ctx.counter + i).toNat ++ zeros 4
        let status := (Config.viewStatusAddr v, viewStatusBytes u.views[v])
        u.ring.own = s.ring.own ++ writesOf s.ring.node (if on then [(Config.viewStatusAddr v, value 1),
          (Config.imageAddr v, imageBytes s.dram.viewImages[v] 0 32768), (Config.viewStatusAddr v, value 2), status]
          else [status])) ∧
      Completes (.publish n) s u n p d .ok counter.toNat 0 0

/-! ### Motion -/

/-- A stop (R82, R118, R124): the view is HELD with its frame and timer gone, the last stop cause is set, a STOP_MARK is
written where the delta ring has room and else counted as lost, the status record follows, VIEW_STOPPED is raised on the
owner port but for STEP_DONE and HOLD_CMD, and a STEP in flight completes. -/
def Obligations.StopRecordsItself : Prop :=
  ∀ (s : State) (v : Slot) (cause : StopCause) (device : Nat),
    let w := s.views[v]
    ∃ u : State,
      u.views[v] = { w with
        state := .held, frame := none, timer := none, atEdge := false
        producer := u.views[v].producer, lostMarks := u.views[v].lostMarks
        ctx := { w.ctx with lastStop := cause, watchDevice := if cause = .watch then device else w.ctx.watchDevice } } ∧
      (∀ x : Slot, x ≠ v → u.views[x] = s.views[x]) ∧ SameJournal s u ∧ u.dram = s.dram ∧
      (1 ≤ deltaFree s v → u.views[v].producer = w.producer + 1 ∧ u.views[v].lostMarks = w.lostMarks ∧
        Stands u (Config.deltaEntry v (w.producer.toNat % 4096)) (stopMarkBytes cause device)) ∧
      (deltaFree s v = 0 → u.views[v].producer = w.producer ∧ u.views[v].lostMarks = min (w.lostMarks + 1) 65535) ∧
      Stands u (Config.viewStatusAddr v) (viewStatusBytes u.views[v]) ∧
      (cause ∉ [.none, .stepDone, .holdCmd] → reports s w.ctx.owner = true →
        hasCause u.ports[w.ctx.owner].causes .viewStopped = true) ∧
      (cause ∈ [.stepDone, .holdCmd] → deltaDistance s v ≤ 4096 → u.ports = s.ports) ∧
      (w.step = none → stopView s v cause device = u) ∧
      (∀ st p c, w.step = some st → findCommand s st.serial = some (p, c) →
        let x := u.setView v { u.views[v] with step := none, ctx := { u.views[v].ctx with budget := 0 } }
        OnlyEnds x (stopView s v cause device) p ∧ Ends x (stopView s v cause device) st.serial p c.descriptor
          (if st.clamped then .clamped else .ok) st.applied cause.code w.ctx.cursor)

/-- RUN and STEP (R112, R114): BAD_STATE while the ring is DOWN; otherwise a view that moves is first brought to HELD
without a stop, the view is RUNNING in a new run, with the break arming clear and no gap before its first frame, and it
goes on to form that frame. RUN completes at once, with the direction as 0 or 1 (log entry 28); STEP stays in flight
with its budget. HOLD (R113): a HELD view is not changed; a moving view is stopped with HOLD_CMD, which raises no cause,
and the completion's second value is 1. A STEP in flight ends with it. -/
def Obligations.RunStepAndHold : Prop :=
  (∀ (s : State) (n : Nat) (p : PortId) (d : Descriptor) (v : Slot), NamesView s p d v →
    let w := s.views[v]
    let starts := fun (u : State) (ports : Vector Port 8) (c : ViewContext) (st : Option StepOp) =>
      u = { s with
        ring := { s.ring with replica := u.ring.replica, own := u.ring.own }, ports := ports
        views := s.views.set v u.views[v]
        arbiter := if w.state = .running ∨ w.state = .stalled then s.arbiter.withdrawFrame v else s.arbiter } ∧
      (∀ a, ¬ InBytes a (Config.viewStatusAddr v) 64 → u.byteAt a = s.byteAt a) ∧
      u.views[v].state = .running ∧ u.views[v].ctx = c ∧ u.views[v].armed = none ∧ u.views[v].noGap = true ∧
      u.views[v].lastFrameTime = none ∧ u.views[v].step = st ∧ u.views[v].producer = w.producer ∧
      (Moving w → u.views[v].frame = none ∧ u.views[v].timer = none ∧ u.views[v].atEdge = false)
    (Taken s n .run p d →
      (s.ring.up = false → Completes (.run n) s s n p d .badState 0 0 0) ∧
      (s.ring.up = true → ∃ u t,
        starts u s.ports { w.ctx with
          direction := if d.field 8 1 = 0 then .forward else .backward
          mode := if d.field 9 1 = 0 then .paced else .flat, budget := 0 } none ∧
        Ends u t n p d .ok w.ctx.cursor (if d.field 8 1 = 0 then 0 else 1) 0 ∧ OnlyEnds u t p ∧
        exec (.run n) s = .next (formFrame t v))) ∧
    (Taken s n .step p d →
      (s.ring.up = false → Completes (.step n) s s n p d .badState 0 0 0) ∧
      (s.ring.up = true → ∃ u,
        starts u (markStarted s n).ports { w.ctx with
          direction := if d.field 10 1 = 0 then .forward else .backward, budget := max 1 (d.field 8 2) }
          (some ⟨n, 0, d.field 8 2 == 0⟩) ∧
        exec (.step n) s = .next (formFrame u v)))) ∧
  (∀ (s : State) (n : Nat) (p : PortId) (d : Descriptor) (v : Slot), Taken s n .hold p d → NamesView s p d v →
    (∀ st, s.views[v].step = some st → st.serial ≠ n) →
    (¬ Moving s.views[v] → Completes (.hold n) s s n p d .ok s.views[v].ctx.cursor 0 0) ∧
    (Moving s.views[v] → Completes (.hold n) s (stopView s v .holdCmd 0) n p d .ok s.views[v].ctx.cursor 1 0))

/-- How far a frame extends, and when it is final (R89, R90, R94): at most 256 entries from the cursor on, within the
width of the first one's time and within the window; a forward frame's reading takes in the first entry beyond it, and a
backward frame is final as soon as it has been read. What a RUNNING view does next (R92, R93, R103): it asks for its
next frame's entries; at its base it is stopped with WINDOW_END; at its limit it waits AT_EDGE while the window can
grow, and is stopped with WINDOW_END or JOURNAL_END where it cannot; while the journal is REBUILDING it forms no frame.
-/
def Obligations.FramesAndEdges : Prop :=
  (∀ (s : State) (c : ViewContext), s.journal.committed ≤ s.dram.journal.length →
    (c.cursor < windowLimit s c →
      let n := forwardCount s c
      1 ≤ n ∧ n ≤ 256 ∧ c.cursor + n ≤ windowLimit s c ∧
      (∀ i < n, (entryAt s (c.cursor + i)).time ≤ (entryAt s c.cursor).time + c.width) ∧
      (n = 256 ∨ c.cursor + n = windowLimit s c ∨
        (entryAt s c.cursor).time + c.width < (entryAt s (c.cursor + n)).time)) ∧
    (windowBase s c < c.cursor → c.cursor ≤ s.journal.committed →
      let n := backwardCount s c
      1 ≤ n ∧ n ≤ 256 ∧ windowBase s c + n ≤ c.cursor ∧
      (∀ i < n, (entryAt s (c.cursor - 1)).time ≤ (entryAt s (c.cursor - 1 - i)).time + c.width) ∧
      (n = 256 ∨ windowBase s c + n = c.cursor ∨
        (entryAt s (c.cursor - 1 - n)).time + c.width < (entryAt s (c.cursor - 1)).time)) ∧
    (c.direction = .forward → frameNeeds s c = min (forwardCount s c + 1) (s.journal.committed - c.cursor)) ∧
    (c.direction = .backward → frameNeeds s c = backwardCount s c) ∧
    (c.direction = .forward → ∀ n, frameFinal s c n = true ↔
      n = 256 ∨ s.journal.state = .sealed ∨ ∃ k, s.merge.settled = some k ∧
        ((entryAt s c.cursor).time + c.width < k.time ∨ ∃ e, c.windowEnd = some e ∧ e < k.time)) ∧
    (c.direction = .backward → ∀ n, frameFinal s c n = true)) ∧
  (∀ (s : State) (v : Slot),
    let w := s.views[v]
    let c := w.ctx
    let asks := formFrame s v = { s with
      views := s.views.set v { w with
        frame := some ⟨0, 0, if w.step = none ∧ c.mode = .paced then .a else .b,
          if w.noGap then none else w.lastFrameTime, .reading⟩
        noGap := false, atEdge := false }
      arbiter := s.arbiter.submit (.view v)
        [⟨.view v, if w.step = none ∧ c.mode = .paced then .a else .b, .frameRead, false⟩] }
    (s.journal.state = .rebuilding → formFrame s v = s) ∧
    (s.journal.state ≠ .rebuilding →
      (c.direction = .backward → windowBase s c < c.cursor → asks) ∧
      (c.direction = .backward → c.cursor ≤ windowBase s c → formFrame s v = stopView s v .windowEnd 0) ∧
      (c.direction = .forward → c.cursor < windowLimit s c → asks) ∧
      (c.direction = .forward → windowLimit s c ≤ c.cursor →
        (windowLimit s c < s.journal.committed → formFrame s v = stopView s v .windowEnd 0) ∧
        (s.journal.state = .sealed → windowLimit s c = s.journal.committed →
          formFrame s v = stopView s v .journalEnd 0) ∧
        (s.journal.state ≠ .sealed → s.journal.committed ≤ windowLimit s c →
          formFrame s v = (s.setView v { w with atEdge := true }).writeViewStatus v))))

/-- What a commit and the sealing do to a view (R79, R93, R94, R107). A HELD or RUNNING view at the committed position
is carried over an entry below its window's start: the entry is applied, the cursor follows, the counter rises by 2, and
the writes are handed over in the order counter odd, changed words, counter even, status record (R127, R131); the
changed words in rising addresses, one write each: log entry 19; its two class B requests: log entry 12. A RUNNING view
that waits AT_EDGE forms a frame when its limit has risen, is stopped where the window can grow no more, takes the new
entry into a frame that waits, without a request of its own (log entry 12), and hands that frame over once it is final;
a frame formed after AT_EDGE has no gap. Any other view is left as it is. -/
def Obligations.CarriesAndEdges : Prop :=
  (∀ (s : State) (p : Nat) (v : Slot),
    let w := s.views[v]
    let e := entryAt s p
    let carried := (w.state = .held ∨ w.state = .running) ∧ w.ctx.cursor = p ∧ e.time < w.ctx.windowStart
    let waits := w.state = .running ∧ w.atEdge = true
    (carried →
      let old := s.dram.viewImages[v]
      let image := old.applyForward e
      let t := viewAtCommit p s v
      t = { s with
        ring := { s.ring with replica := t.ring.replica, own := t.ring.own }
        views := s.views.set v { w with ctx := { w.ctx with
          cursor := p + 1, cursorTime := w.ctx.windowStart, counter := w.ctx.counter + 2 } }
        dram := { s.dram with viewImages := s.dram.viewImages.set v image }
        arbiter := s.arbiter.submit (.view v) [⟨.view v, .b, .carry, false⟩, ⟨.view v, .b, .carry, false⟩] } ∧
      Stands t (Config.viewStatusAddr v) (viewStatusBytes t.views[v]) ∧
      (s.ring.up = true → ∃ ws : List Nat, ws.Pairwise (· < ·) ∧
        (∀ i, i ∈ ws ↔ imageBytes old (8 * i) 8 ≠ imageBytes image (8 * i) 8) ∧
        let counter := fun (i : BitVec 32) => (Config.viewStatusAddr v, leBytes 4 (w.ctx.counter + i).toNat ++ zeros 4)
        t.ring.own = s.ring.own ++ writesOf s.ring.node ((if w.ctx.published then
          [counter 1] ++ ws.map (fun i => (Config.imageAddr v + 8 * i, imageBytes image (8 * i) 8)) ++ [counter 2]
          else []) ++ [(Config.viewStatusAddr v, viewStatusBytes t.views[v])]))) ∧
    (¬ carried → waits → viewAtCommit p s v = edgeUpdate s v) ∧
    (¬ carried → ¬ waits → viewAtCommit p s v = s) ∧
    (waits → viewAtSeal s v = edgeUpdate s v) ∧ (¬ waits → viewAtSeal s v = s)) ∧
  (∀ (s : State) (v : Slot),
    let w := s.views[v]
    let limit := windowLimit s w.ctx
    let leaves := fun (x : View) (t : State) =>
      t = { s with ring := { s.ring with replica := t.ring.replica, own := t.ring.own }, views := s.views.set v x } ∧
      Stands t (Config.viewStatusAddr v) (viewStatusBytes x) ∧
      ∀ a, ¬ InBytes a (Config.viewStatusAddr v) 64 → t.byteAt a = s.byteAt a
    (w.frame = none →
      (w.ctx.cursor < limit → ∃ t, leaves { w with atEdge := false, noGap := true } t ∧ edgeUpdate s v = formFrame t v) ∧
      (limit ≤ w.ctx.cursor →
        (limit < s.journal.committed → edgeUpdate s v = stopView s v .windowEnd 0) ∧
        (s.journal.state = .sealed → limit = s.journal.committed → edgeUpdate s v = stopView s v .journalEnd 0) ∧
        (s.journal.state ≠ .sealed → s.journal.committed ≤ limit → edgeUpdate s v = s))) ∧
    (∀ f, w.frame = some f →
      let g := { f with count := frameCount s w.ctx }
      let final := frameFinal s w.ctx g.count = true
      let delay := frameDelay s w f
      (¬ final → edgeUpdate s v = { s with views := s.views.set v { w with frame := some g } }) ∧
      (final → ∃ t, leaves { w with atEdge := false, noGap := true, frame := some g } t ∧
        (delay = 0 → edgeUpdate s v = releaseFrame t v g) ∧
        (delay ≠ 0 → edgeUpdate s v = { t with views := s.views.set v { w with
          atEdge := false, noGap := true, frame := some { g with phase := .delaying false }
          timer := some (loadTimer delay) } }))))

/-- The end of a frame's reading (R92, R94, R108, R116): a first entry beyond an armed break stops the view before the
frame is applied; a frame that is not final waits AT_EDGE; a final one is released at once, or after its delay. Which
frame decides an arming that SET_STOPS cleared while a frame was being read: log entry 15. -/
def Obligations.FrameReadEnds : Prop :=
  ∀ (s : State) (v : Slot) (f : Frame), frameReadGranted s v = true → s.views[v].frame = some f → f.phase = .reading →
    let w := s.views[v]
    let beyond := frameBeyond s w.ctx
    let stops := f.blocks = 0 ∧ w.armed = some true ∧ beyond = true
    let armed := if w.armed = none ∧ f.blocks = 0 then some (w.ctx.breakTime.isSome && !beyond) else w.armed
    let g := { f with blocks := f.blocks + 1, count := frameCount s w.ctx }
    let final := frameFinal s w.ctx (frameCount s w.ctx) = true
    let delay := frameDelay s w f
    (stops → exec (.frameReadEnd v) s = .next (stopView { s with arbiter := s.arbiter.finish } v .breakTime 0)) ∧
    (¬ stops → frameNeeds s w.ctx ≤ 64 * (f.blocks + 1) →
      (¬ final → ∃ t, exec (.frameReadEnd v) s = .next t ∧
        t = { s with
          ring := { s.ring with replica := t.ring.replica, own := t.ring.own }, arbiter := s.arbiter.finish
          views := s.views.set v { w with frame := some { g with phase := .atEdge }, armed := armed, atEdge := true } } ∧
        Stands t (Config.viewStatusAddr v) (viewStatusBytes t.views[v]) ∧
        (∀ a, ¬ InBytes a (Config.viewStatusAddr v) 64 → t.byteAt a = s.byteAt a)) ∧
      (final → delay = 0 → exec (.frameReadEnd v) s = .next (releaseFrame { s with
        arbiter := s.arbiter.finish, views := s.views.set v { w with frame := some g, armed := armed } } v g)) ∧
      (final → delay ≠ 0 → exec (.frameReadEnd v) s = .next { s with
        arbiter := s.arbiter.finish
        views := s.views.set v { w with
          frame := some { g with phase := .delaying false }, armed := armed, timer := some (loadTimer delay) } }))

/-- What a delay is measured from and what a CHANGE record holds. A frame has a delay only when it was formed for a
PACED view without a STEP, is handed over while the view still is one (R106, log entry 15), and has a gap (R107, R111):
the time between its first entry and the previous frame's last one in the view's direction, held at the quiet limit and
scaled by the speed (R108). A frame's CHANGE records are those of its entries that pass the filter, in the order applied
(R123, R125), and each holds the frame number, the position and time, the quality class, the device with its station and
kind, the two states in the frame's direction, the flags, the number of witnesses, the first witness's source and the
origin, at its offsets (R175). -/
def Obligations.GapsAndChangeRecords : Prop :=
  (∀ (s : State) (w : View) (f : Frame),
    let paced := f.cls = .a ∧ w.ctx.mode = .paced ∧ w.step = none
    let delay := frameDelay s w f
    (¬ paced ∨ f.gapFrom = none → delay = 0) ∧
    (paced → ∀ since, f.gapFrom = some since →
      let gap := if w.ctx.direction = .forward then (entryAt s w.ctx.cursor).time - since
        else since - (entryAt s (w.ctx.cursor - 1)).time
      let held := min gap w.ctx.quiet
      (∀ k : Nat, w.ctx.speed = (k : Int) → delay * 2 ^ k ≤ held ∧ held < (delay + 1) * 2 ^ k) ∧
      (∀ k : Nat, w.ctx.speed = -(k : Int) → delay = held * 2 ^ k))) ∧
  (∀ (s : State) (c : ViewContext) (e : Entry), passesFilter s c e = true ↔
    (c.ranges = [] ∨ ∃ r ∈ c.ranges, r.1 ≤ (s.catalogueEntry e.device).station ∧ (s.catalogueEntry e.device).station ≤ r.2) ∧
      c.kinds.getLsbD (s.catalogueEntry e.device).kind.code = true) ∧
  (∀ (s : State) (c : ViewContext) (number : Nat) (es : List Entry),
    let records := changeRecords s c number es
    records.length = es.countP (passesFilter s c) ∧
    ∀ (j : Nat) (h : j < es.length), passesFilter s c es[j] = true →
      let e := es[j]
      let device := s.catalogueEntry e.device
      let forward := c.direction = .forward
      let before := if forward then e.priorState else e.newState
      let after := if forward then e.newState else e.priorState
      let position := if forward then c.cursor + j else c.cursor - 1 - j
      ∃ bs, records[(es.take j).countP (passesFilter s c)]? = some bs ∧ bs.length = 32 ∧
        let field := fun (at_ len : Nat) => leNat ((bs.drop at_).take len)
        field 0 1 = 1 ∧
        field 1 1 = before.code + 8 * after.code + (if forward then 0 else 64) ∧
        field 2 1 = (device.kind.code + 4 * qualityClass e.unc + 32 * (e.witnesses.length - 1)) % 256 ∧
        field 3 1 = flagByte e.isRepeat e.ambiguous e.flags e.forced false ∧
        field 4 4 = number % 2 ^ 32 ∧ field 8 4 = position % 2 ^ 32 ∧ field 12 5 = e.time % 2 ^ 40 ∧
        field 17 2 = e.device % 65536 ∧ field 19 2 = device.station % 65536 ∧
        field 21 1 = ((e.witnesses.head?.map Prod.fst).getD 0) % 256 ∧
        field 22 1 = (match e.origin with
          | some o => o.code
          | none => 255))

/-- A release (R116, R127, R128): stopped by an armed break, or by one that SET_STOPS set during the frame's delay
though that clears the arming (log entry 15), that the frame lies beyond; published where its CHANGE records have room;
else kept with the view STALLED. The pacing timer's rows are the microsecond in which the slot's count reaches 0 (R109,
R110), where no other timer ends a segment: with reload segments left it loads 65,536; otherwise it is IDLE and its
frame is released. At any other count they change nothing (log entry 3). -/
def Obligations.TimerEventsReleaseFrame : Prop :=
  (∀ (s : State) (v : Slot) (f : Frame),
    let w := s.views[v]
    let n := (frameEntries s w.ctx f.count).countP (passesFilter s w.ctx)
    let stops := (w.armed = some true ∨ f.phase = .delaying true) ∧ frameBeyond s w.ctx = true
    (stops → releaseFrame s v f = stopView s v .breakTime 0) ∧
    (¬ stops → deltaDistance s v ≤ 4096 → n ≤ 4096 - deltaDistance s v → releaseFrame s v f = applyFrame s v f) ∧
    (¬ stops → deltaDistance s v ≤ 4096 → 4096 - deltaDistance s v < n → ∃ t, releaseFrame s v f = t ∧
      t = { s with
        ring := { s.ring with replica := t.ring.replica, own := t.ring.own }
        views := s.views.set v { w with
          state := .stalled, timer := none, frame := some { f with phase := .stalled } } } ∧
      Stands t (Config.viewStatusAddr v) (viewStatusBytes t.views[v]) ∧
      (∀ a, ¬ InBytes a (Config.viewStatusAddr v) 64 → t.byteAt a = s.byteAt a))) ∧
  (∀ (s : State) (v : Slot),
    (¬ SegmentOver s v → exec (.timerSegmentReload v) s = .next s ∧ exec (.pacingTimerExpiry v) s = .next s) ∧
    (∀ c, s.views[v].timer = some c → SegmentOver s v → (∀ x : Slot, x ≠ v → ¬ SegmentOver s x) →
      let pulsed : State := { s with
        timebase := s.timebase + 1
        views := s.views.map fun w => { w with timer := w.timer.map fun c =>
          if (s.timebase + 1) % c.tap = 0 then { c with count := c.count - 1 } else c } }
      (c.segments ≠ 0 → exec (.pacingTimerExpiry v) s = .next s ∧
        exec (.timerSegmentReload v) s = .next { pulsed with views := pulsed.views.set v { s.views[v] with
          timer := some ⟨c.tap, 65536, c.segments - 1⟩ } }) ∧
      (c.segments = 0 → exec (.timerSegmentReload v) s = .next s ∧
        let idle : State := { pulsed with views := pulsed.views.set v { s.views[v] with timer := none } }
        (s.views[v].frame = none → exec (.pacingTimerExpiry v) s = .next idle) ∧
        ∀ f, s.views[v].frame = some f → exec (.pacingTimerExpiry v) s = .next (releaseFrame idle v f))))

/-- A published frame (R83, R91, R117, R123, R127, R130, R131): every entry is applied in the frame's direction, the
cursor and its time move, the frame counter rises by 2, the CHANGE records stand in the delta ring from the producer
index on, a published image stays the view's image, and the first stop test that holds stops the view; where none holds
the view forms its next frame (R92). The frame's image writes are asked for, one for each 64 entries (log entry 12). The
writes are handed over in the order counter odd, changed words, counter even, CHANGE records, status record, before all
that follows; that the words go in increasing addresses, one write each: log entry 19. -/
def Obligations.FrameApplied : Prop :=
  ∀ (s : State) (v : Slot) (f : Frame),
    let c := s.views[v].ctx
    let es := frameEntries s c f.count
    let image := es.foldl (applyEntry c.direction) s.dram.viewImages[v]
    let records := changeRecords s c (c.counter + 2).toNat es
    let t := applyFrame s v f
    records.length ≤ deltaFree s v →
    t.dram = { s.dram with viewImages := s.dram.viewImages.set v image } ∧
    t.views[v].ctx.cursor = (if c.direction = .forward then c.cursor + f.count else c.cursor - f.count) ∧
    t.views[v].ctx.cursorTime = cursorTimeAt s c t.views[v].ctx.cursor ∧
    t.views[v].ctx.counter = c.counter + 2 ∧
    (∀ (i : Nat) (h : i < records.length),
      Stands t (Config.deltaEntry v ((s.views[v].producer.toNat + i) % 65536 % 4096)) records[i]) ∧
    (c.published = true → (∀ d < 32768, s.byteAt (Config.imageAddr v + d) = (s.dram.viewImages[v].at d).encode) →
      ∀ d < 32768, t.byteAt (Config.imageAddr v + d) = (image.at d).encode) ∧
    t.views[v].lastFrameTime = es.getLast?.map Entry.time ∧
    (s.ring.up = true → ∃ (ws : List Nat) (more : List Packet), ws.Pairwise (· < ·) ∧
      (∀ i, i ∈ ws ↔ imageBytes s.dram.viewImages[v] (8 * i) 8 ≠ imageBytes image (8 * i) 8) ∧
      let counter := fun (i : BitVec 32) => (Config.viewStatusAddr v, leBytes 4 (c.counter + i).toNat ++ zeros 4)
      t.ring.own = s.ring.own ++ writesOf s.ring.node ((if c.published then
        [counter 1] ++ ws.map (fun i => (Config.imageAddr v + 8 * i, imageBytes image (8 * i) 8)) ++ [counter 2]
        else []) ++
        records.zipIdx.map (fun x => (Config.deltaEntry v ((s.views[v].producer.toNat + x.2) % 65536 % 4096), x.1)) ++
        [(Config.viewStatusAddr v, viewStatusBytes { s.views[v] with
          state := .running, atEdge := false
          producer := s.views[v].producer + BitVec.ofNat 16 records.length
          ctx := { c with
            counter := c.counter + 2, cursor := t.views[v].ctx.cursor, cursorTime := t.views[v].ctx.cursorTime } })]) ++
        more) ∧
    (∀ x : Slot, x ≠ v → t.views[x] = s.views[x]) ∧ SameJournal s { t with dram := s.dram } ∧
    (∃ u, u = { s with
        ring := { s.ring with replica := u.ring.replica, own := u.ring.own }
        views := s.views.set v { s.views[v] with
          state := .running, frame := none, atEdge := false, timer := none, lastFrameTime := es.getLast?.map Entry.time
          step := s.views[v].step.map fun x => { x with applied := x.applied + 1 }
          producer := s.views[v].producer + BitVec.ofNat 16 records.length
          ctx := { c with
            cursor := t.views[v].ctx.cursor, cursorTime := t.views[v].ctx.cursorTime
            budget := c.budget - 1, counter := c.counter + 2 } }
        dram := { s.dram with viewImages := s.dram.viewImages.set v image }
        arbiter := s.arbiter.submit (.view v) (requests (.view v) f.cls .frameWrite ((f.count + 63) / 64) false) } ∧
      Stands u (Config.viewStatusAddr v) (viewStatusBytes u.views[v]) ∧
      let watched := es.find? fun e => decide (e.device ∈ c.watch) && !e.isRepeat
      let ambiguous := c.stopAmbiguous = true ∧ ∃ e ∈ es, e.ambiguous = true
      let done := s.views[v].step ≠ none ∧ c.budget ≤ 1
      (∀ e, watched = some e → t = stopView u v .watch e.device) ∧
      (watched = none → ambiguous → t = stopView u v .ambiguous 0) ∧
      (watched = none → ¬ ambiguous → done → t = stopView u v .stepDone 0) ∧
      (watched = none → ¬ ambiguous → ¬ done → t = formFrame u v)) ∧
    ((∃ e ∈ es, e.device ∈ c.watch ∧ e.isRepeat = false) →
      t.views[v].state = .held ∧ t.views[v].ctx.lastStop = .watch) ∧
    ((∀ e ∈ es, e.device ∈ c.watch → e.isRepeat = true) → c.stopAmbiguous = true → (∃ e ∈ es, e.ambiguous = true) →
      t.views[v].state = .held ∧ t.views[v].ctx.lastStop = .ambiguous) ∧
    ((∀ e ∈ es, e.device ∈ c.watch → e.isRepeat = true) → (c.stopAmbiguous = true → ∀ e ∈ es, e.ambiguous = false) →
      s.views[v].step ≠ none → c.budget = 1 → t.views[v].state = .held ∧ t.views[v].ctx.lastStop = .stepDone)

/-! ### The stacked-DRAM channel -/

/-- A grant on a free channel (R171, R172): it goes to the highest aged class, else to the highest class with a waiting
request; within A and B to the first requester after the class's turn, within C and D to the longest waiting. The class
granted has ageing count 0 again, and every other class with a waiting request ages by one. -/
def Obligations.GrantFollowsPriority : Prop :=
  ∀ s : State, ArbiterSane s → s.arbiter.channel = none →
    let a := s.arbiter
    let rank : RequestClass → Nat := fun k => match k with
      | .a => 0
      | .b => 1
      | .c => 2
      | .d => 3
    let aged := fun k => a.hasWaiting k = true ∧ 64 ≤ a.age k
    (a.waiting = [] → exec .dramGrant s = .next s) ∧
    (a.waiting ≠ [] → ∃ r t, exec .dramGrant s = .next t ∧ t = { s with arbiter := t.arbiter } ∧
      t.arbiter.channel = some r ∧ r ∈ a.waiting ∧ t.arbiter.waiting = a.waiting.erase r ∧ t.arbiter.backlog = a.backlog ∧
      ((∃ k, aged k) → aged r.cls ∧ ∀ k, aged k → rank r.cls ≤ rank k) ∧
      ((¬ ∃ k, aged k) → ∀ k, a.hasWaiting k = true → rank r.cls ≤ rank k) ∧
      t.arbiter.age r.cls = 0 ∧ (∀ k, k ≠ r.cls → a.hasWaiting k = true → t.arbiter.age k = a.age k + 1) ∧
      (r.cls = .a → ∃ i < 8, r.who.place = some ((a.turnA + 1 + i) % 8) ∧ t.arbiter.turnA = (a.turnA + 1 + i) % 8 ∧
        ∀ x ∈ a.waiting, x.cls = .a → ∀ j < i, x.who.place ≠ some ((a.turnA + 1 + j) % 8)) ∧
      (r.cls = .b → ∃ i < 9, r.who.place = some ((a.turnB + 1 + i) % 9) ∧ t.arbiter.turnB = (a.turnB + 1 + i) % 9 ∧
        ∀ x ∈ a.waiting, x.cls = .b → ∀ j < i, x.who.place ≠ some ((a.turnB + 1 + j) % 9)) ∧
      (r.cls = .c ∨ r.cls = .d → (a.waiting.filter fun x => x.cls == r.cls).head? = some r))

/-- The end of a transfer inside its series (R7, R92, R116, R150, R170, R174). While the channel holds a request whose
end is a row of its own, DRAM_GRANT makes no grant. Otherwise the transfer ends, and the grant follows as on a free
channel: a frame's block has been read, the break is tested or its arming decided at the first, and the next block is
asked for; a readout's block stands in the port's readout area; the next block of a catalogue load is taken and its
write asked for; and the end of any other request, a catalogue write of FORMAT among them (R6), changes nothing
else. These clauses are the model's choice: that the grant, and this end with it, comes only when the queue gives the
row (log entry 11); that the next catalogue block is taken as its write is presented (log entry 13); and the arming kept
or decided while a frame is being read, where SET_STOPS may have cleared it (log entry 15). -/
def Obligations.GrantEndsTransfer : Prop :=
  ∀ (s : State) (r : Request), s.arbiter.channel = some r →
    let x := { s with arbiter := s.arbiter.finish }
    let goesOn := fun (t : State) => t.arbiter.channel = none ∧ exec .dramGrant s = exec .dramGrant t
    (r.last = true → exec .dramGrant s = .next s) ∧
    (r.last = false → ((∃ v : Slot, r.who = .view v) ∧ r.kind ≠ .frameRead) ∨
      r.who ∈ [Requester.rebuild, .commitWriter, .checkpointWriter, .lateWriter, .contextCopier] → goesOn x) ∧
    (∀ (v : Slot) (f : Frame), r.last = false → r.who = .view v → r.kind = .frameRead → s.views[v].frame = some f →
      f.phase = .reading →
      let w := s.views[v]
      let beyond := frameBeyond s w.ctx
      let needs := frameNeeds s w.ctx
      let ends := (f.blocks = 0 ∧ w.armed = some true ∧ beyond = true) ∨ needs ≤ 64 * (f.blocks + 1)
      (ends → exec .dramGrant s = .next s) ∧
      (¬ ends → goesOn { x with
        views := s.views.set v { w with
          frame := some { f with blocks := f.blocks + 1 }
          armed := if w.armed = none ∧ f.blocks = 0 then some (w.ctx.breakTime.isSome && !beyond) else w.armed }
        arbiter := x.arbiter.submit (.view v) [⟨.view v, f.cls, .frameRead, false⟩] })) ∧
    (∀ (p : PortId) (o : Readout), r.last = false → r.who = .readout p → r.kind = .readout → s.readouts[p] = some o →
      o.copied + 64 ≤ o.count → o.count ≤ 2048 →
      (o.isLate = true → o.count ≤ s.merge.late.length) → (o.isLate = false → o.start + o.count ≤ s.dram.journal.length) →
      WithinCapacity s →
      let block := if o.isLate then ((s.merge.late.drop o.copied).take 64).flatMap lateBytes
        else (entriesBetween s (o.start + o.copied) (o.start + o.copied + 64)).flatMap entryBytes
      ∃ t, t = { x with
          ring := { s.ring with replica := t.ring.replica, own := t.ring.own }
          readouts := s.readouts.set p (some { o with copied := o.copied + 64 }) } ∧
        Stands t (Config.readoutEntry p o.copied) block ∧
        (∀ a, ¬ InBytes a (Config.readoutEntry p o.copied) 2048 → t.byteAt a = s.byteAt a) ∧ goesOn t) ∧
    (∀ (n : Nat) (clamped : Bool) (c : CatalogueLoad), r.last = false → r.who = .catalogueWriter →
      r.kind = .catalogueWrite → s.journal.reserved = some ⟨n, clamped, .catalogueLoad c⟩ →
      ∃ (t : State) (c' : CatalogueLoad), TakesCatalogueBlock s t c c' ∧
        t = { x with
          journal := { s.journal with reserved := some ⟨n, clamped, .catalogueLoad c'⟩ }
          catalogue := t.catalogue, merge := { s.merge with image := t.merge.image }
          arbiter := x.arbiter.submit .catalogueWriter
            [⟨.catalogueWriter, .d, .catalogueWrite, decide (c'.count ≤ c'.taken)⟩] } ∧ goesOn t) ∧
    (r.last = false → r.who = .catalogueWriter → r.kind = .catalogueWrite →
      (∀ n clamped c, s.journal.reserved ≠ some ⟨n, clamped, .catalogueLoad c⟩) → goesOn x)

/-! ### Ports -/

/-- ATTACH (R135, R136): the oldest notice is taken. A bound sender's weight and depth are updated, a lower depth being
held until the port has no more commands than that; an unbound one is bound to the lowest free port, whose head and
completion producer index come from its control page; with no free port it is the last refused node. The binding table
and the last refused node of the part status page are rewritten (R159). -/
def Obligations.AttachBinds : Prop :=
  ∀ (s : State) (q : QueuedNotice) (rest : List QueuedNotice), s.ring.attachQueue = q :: rest →
    let weight := max 1 (min (q.datum.toNat % 256) 8)
    let asked := q.datum.toNat / 256 % 256
    let depth := if asked ≤ 1 then 1 else if asked ≤ 3 then 2 else if asked ≤ 7 then 4 else 8
    let ring := fun (t : State) => { s.ring with
      attachQueue := rest, replica := t.ring.replica, own := t.ring.own }
    (∀ p, portOf s q.sender = some p → ∃ t, exec .attach s = .next t ∧
      t = { s with ring := ring t, ports := s.ports.set p t.ports[p] } ∧
      (s.ports[p].depth ≤ depth → t.ports[p] = { s.ports[p] with weight := weight, depth := depth, pendingDepth := none }) ∧
      (depth < s.ports[p].depth → s.ports[p].buffer.length ≤ depth → s.ports[p].inFlight.length ≤ depth →
        t.ports[p] = { s.ports[p] with weight := weight, depth := depth, pendingDepth := none }) ∧
      (depth < s.ports[p].depth → depth < s.ports[p].buffer.length ∨ depth < s.ports[p].inFlight.length →
        t.ports[p] = { s.ports[p] with weight := weight, pendingDepth := some depth }) ∧
      Stands t (Config.portStatusAddr p) (portStatusBytes t p) ∧ BindingShown t p) ∧
    (portOf s q.sender = none →
      (∀ p : PortId, s.ports[p].bound = none → (∀ j : PortId, j < p → s.ports[j].bound ≠ none) →
        ∃ t, exec .attach s = .next t ∧ t = { s with ring := ring t, ports := s.ports.set p t.ports[p] } ∧
          t.ports[p] = { bound := some q.sender, weight := weight, depth := depth
                         head := s.indexAt (Config.producerAddr p), produced := s.indexAt (Config.consumerAddr p) } ∧
          Stands t (Config.portStatusAddr p) (portStatusBytes t p) ∧ BindingShown t p ∧
          pageOwner t (Config.portBase p) = .node q.sender) ∧
      ((∀ p : PortId, s.ports[p].bound ≠ none) → ∃ t, exec .attach s = .next t ∧
        t = { s with ring := { ring t with lastRefused := some q.sender } } ∧ RingWordShown t))

/-- DETACH (R119, R135, R137): the sender's port is marked as detaching, its buffered commands are dropped, its causes
are gone and its gate is ARMED, its lower pages have no owner, a pending depth takes effect where the commands in flight
number no more, and a STEP of the port in flight ends, its view HELD with HOLD_CMD: one that its view has begun, and one
that still waits, but for the view of one that waits behind a seek (log entry 18). From any other sender the notice has
no effect. The end of a detach (R11, R102, R138): with nothing in flight and no view of the port SEEKING (log entry 18),
the port's views are FREE, its parked entries empty and its sources unowned, those STREAMING being ENDED; the port is
unbound and keeps its two indices; and a commit run follows. The binding table of the part status page shows the detach
in progress, and the port's entry cleared at its end (R138, R159). -/
def Obligations.DetachStartsAndEnds : Prop :=
  (∀ (s : State) (q : QueuedNotice) (rest : List QueuedNotice), s.ring.detachQueue = q :: rest →
    (portOf s q.sender = none → exec .detach s = .next { s with ring := { s.ring with detachQueue := rest } }) ∧
    (∀ p, portOf s q.sender = some p → ∃ t, exec .detach s = .next t ∧
      t.ports[p] = { s.ports[p] with
        detaching := true, look := false, halted := false, buffer := [], causes := 0, fired := false
        inFlight := t.ports[p].inFlight, depth := t.ports[p].depth, pendingDepth := t.ports[p].pendingDepth } ∧
      pageOwner t (Config.portBase p) = .nobody ∧ fetchState t p = .stopped ∧ BindingShown t p ∧
      (∀ v : Slot, s.views[v].ctx.owner = p → s.views[v].step ≠ none →
        t.views[v].state = .held ∧ t.views[v].step = none ∧ t.views[v].ctx.lastStop = .holdCmd) ∧
      (∀ (v : Slot) (c : InFlight), c ∈ s.ports[p].inFlight → c.descriptor.kind = some .step → c.descriptor.target = v.val →
        s.views[v].ctx.owner = p → s.views[v].state ≠ .free → s.views[v].state ≠ .seeking →
        (∀ (x : Slot) (st : StepOp), s.views[x].step = some st → st.serial ≠ c.serial) →
        t.views[v].state = .held ∧ t.views[v].ctx.lastStop = .holdCmd) ∧
      (∀ v : Slot, s.views[v].ctx.owner ≠ p ∨ (s.views[v].step = none ∧ ∀ c ∈ s.ports[p].inFlight,
        c.descriptor.kind = some .step → c.descriptor.target ≠ v.val ∨ s.views[v].state = .free ∨
          s.views[v].state = .seeking) → t.views[v] = s.views[v]) ∧
      ((∀ q : PortId, q ≠ p → ∀ c ∈ s.ports[q].inFlight, ∀ c' ∈ s.ports[p].inFlight, c.serial ≠ c'.serial) →
        s.ports[p].inFlight.Pairwise (fun c c' => c.serial ≠ c'.serial) →
        (∀ (v : Slot) (st : StepOp), s.views[v].step = some st → ∀ c ∈ s.ports[p].inFlight, c.serial = st.serial →
          s.views[v].ctx.owner = p ∧ c.descriptor.kind = some .step) →
        t.ports[p].inFlight = s.ports[p].inFlight.filter fun c => c.descriptor.kind != some .step) ∧
      (∀ m, s.ports[p].pendingDepth = some m → s.ports[p].inFlight.length ≤ m →
        t.ports[p].depth = m ∧ t.ports[p].pendingDepth = none) ∧
      t.sources = s.sources ∧ t.parked = s.parked ∧ t.journal = s.journal)) ∧
  (∀ (s : State) (p : PortId), Canonical s → s.ports[p].detaching = true → s.ports[p].inFlight = [] →
    (∀ v : Slot, s.views[v].ctx.owner = p → s.views[v].state ≠ .seeking) →
    ∃ u, exec (.detachEnd p) s = .next (journalProceeds { u with merge := { u.merge with run := some (horizon u) } }) ∧
      u.ports = s.ports.set p { head := s.ports[p].head, produced := s.ports[p].produced } ∧
      (∀ v : Slot, u.views[v] = if s.views[v].state ≠ .free ∧ s.views[v].ctx.owner = p
        then { producer := s.views[v].producer } else s.views[v]) ∧
      (∀ i, u.parkedEntry i = match s.parkedEntry i with
        | some c => if c.owner = p then none else some c
        | none => none) ∧
      (∀ i, u.source i = if (s.source i).owner = some p then { s.source i with
          owner := none, state := if (s.source i).state = .streaming then .ended else (s.source i).state }
        else s.source i) ∧
      Stands u (Config.portStatusAddr p) (portStatusBytes u p) ∧
      Stands u (Config.partStatusAddr + 64 + 8 * p.val) (zeros 8) ∧
      u.journal = s.journal ∧ u.merge = s.merge ∧ u.dram = s.dram)

/-- REARM (R164): the sender's gate becomes ARMED; where the cause set is then not empty and the ring is UP, an
ATTENTION notice with the set is handed over at once and the gate is FIRED again; where the set is empty the gate stays
ARMED, and a cause raised after it fires the gate. A gate that was ARMED acts in the same way, the datum is not used, a
REARM of a node whose port is not bound or is detaching has no effect, and the port status record shows the gate
afterwards. -/
def Obligations.RearmSendsCauses : Prop :=
  ∀ (s : State) (q : QueuedNotice) (rest : List QueuedNotice), s.ring.rearmQueue = q :: rest →
    (portOf s q.sender = none → exec .rearm s = .next { s with ring := { s.ring with rearmQueue := rest } }) ∧
    (∀ p, portOf s q.sender = some p →
      let causes := s.ports[p].causes
      let sends := causes ≠ 0 ∧ s.ring.up = true
      ∃ t, exec .rearm s = .next t ∧
        t = { s with
          ring := { s.ring with rearmQueue := rest, replica := t.ring.replica, own := t.ring.own }
          ports := s.ports.set p t.ports[p] } ∧
        t.ports[p] = { s.ports[p] with fired := decide sends } ∧
        (sends → Packet.notice s.ring.node q.sender .attention (causes.setWidth 32) 0 ∈ t.ring.own) ∧
        (¬ sends → ∀ k ∈ t.ring.own, k ∈ s.ring.own ∨ ∃ a b, k = .write s.ring.node a b 0) ∧
        (causes = 0 → s.ring.up = true → ∀ c,
          Packet.notice s.ring.node q.sender .attention (c.mask.setWidth 32) 0 ∈ (raiseCause t p c).ring.own) ∧
        Stands t (Config.portStatusAddr p) (portStatusBytes t p) ∧
        (∀ a, ¬ InBytes a (Config.portStatusAddr p) 24 → t.byteAt a = s.byteAt a))

/-- KICK (R141, R143): the sender's port is marked to look; a HALTED port reads its producer word again, and leaves the
halt at a distance of 256 or less, else keeps it with the new halting value and RING_INDEX raised. From a node that is
not bound it has no effect. FETCH (R141, R142): a port marked to look, with room and not HALTED, copies descriptors
from its head on as the replica holds them, as many as the producer word and the depth allow; a distance above 256
halts it; any other port makes no fetch. -/
def Obligations.KickAndFetch : Prop :=
  (∀ (s : State) (q : QueuedNotice) (rest : List QueuedNotice), s.ring.kickQueue = q :: rest →
    (portOf s q.sender = none → exec .kick s = .next { s with ring := { s.ring with kickQueue := rest } }) ∧
    (∀ p, portOf s q.sender = some p →
      let word := s.indexAt (Config.producerAddr p)
      ∃ t, exec .kick s = .next t ∧
        t = { s with
          ring := { s.ring with kickQueue := rest, replica := t.ring.replica, own := t.ring.own }
          ports := s.ports.set p t.ports[p] } ∧
        (s.ports[p].halted = false → t.ports[p] = { s.ports[p] with look := true }) ∧
        (s.ports[p].halted = true → (word - s.ports[p].head).toNat ≤ 256 →
          t.ports[p] = { s.ports[p] with look := true, halted := false }) ∧
        (s.ports[p].halted = true → 256 < (word - s.ports[p].head).toNat →
          t.ports[p] = { s.ports[p] with
            look := false, haltValue := word, fired := s.ports[p].fired || s.ring.up
            causes := s.ports[p].causes ||| 64 }) ∧
        Stands t (Config.portStatusAddr p) (portStatusBytes t p))) ∧
  (∀ (s : State) (p : PortId),
    let x := s.ports[p]
    let word := s.indexAt (Config.producerAddr p)
    let distance := (word - x.head).toNat
    let k := min distance (x.depth - x.buffer.length)
    (mayFetch s p = false → exec (.fetch p) s = .next s) ∧
    (mayFetch s p = true → distance ≤ 256 → ∃ t, exec (.fetch p) s = .next t ∧
      t = { s with
        ring := { s.ring with replica := t.ring.replica, own := t.ring.own }
        ports := s.ports.set p { x with
          buffer := x.buffer ++ (List.range k).map fun j =>
            ⟨s.bytesAt (Config.commandEntry p ((x.head.toNat + j) % 65536 % 256)) 32⟩
          head := x.head + BitVec.ofNat 16 k, look := decide (k < distance) } } ∧
      Stands t (Config.portStatusAddr p) (portStatusBytes t p) ∧
      (∀ a, ¬ InBytes a (Config.portStatusAddr p) 24 → t.byteAt a = s.byteAt a)) ∧
    (mayFetch s p = true → 256 < distance → ∃ t, exec (.fetch p) s = .next t ∧
      t = { s with
        ring := { s.ring with replica := t.ring.replica, own := t.ring.own }
        ports := s.ports.set p { x with
          halted := true, haltValue := word, look := false, causes := x.causes ||| 64, fired := x.fired || s.ring.up } } ∧
      fetchState t p = .halted ∧ Stands t (Config.portStatusAddr p) (portStatusBytes t p)))

/-- When a port fetches, when it may dispatch, and which command goes first. A fetch (R141) needs a bound port that is
not detaching, marked to look, not HALTED, with room in its buffer. A candidate (R144, R146) is bound, not detaching,
has an eligible command, fewer commands in flight than its depth and a free completion slot. Two commands conflict
(R145) when they name one view slot, name one source, both use the readout area, or both use the journal and one of them
whole. The eligible command is the oldest in the buffer that conflicts with none before it, buffered or in flight. -/
def Obligations.FetchDispatchAndOrder : Prop :=
  (∀ (s : State) (p : PortId), let x := s.ports[p]
    (mayFetch s p = true ↔ x.bound ≠ none ∧ x.detaching = false ∧ x.look = true ∧ x.halted = false ∧
      x.buffer.length < x.depth) ∧
    (isCandidate s p = true ↔ x.bound ≠ none ∧ x.detaching = false ∧ x.eligible ≠ none ∧
      x.inFlight.length < x.depth ∧ let u := (x.produced - s.indexAt (Config.consumerAddr p)).toNat
        x.inFlight.length + u < 256)) ∧
  (∀ (x : Port) (d : Descriptor) (rest : List Descriptor), x.eligible = some (d, rest) ↔
    ∃ before after : List Descriptor, x.buffer = before ++ d :: after ∧ rest = before ++ after ∧
      (∀ c ∈ x.inFlight, conflict d c.descriptor = false) ∧ (∀ e ∈ before, conflict d e = false) ∧
      ∀ (i : Nat) (h : i < before.length), (∃ c ∈ x.inFlight, conflict before[i] c.descriptor = true) ∨
        ∃ (j : Nat) (g : j < before.length), j < i ∧ conflict before[i] before[j] = true) ∧
  (∀ d e : Descriptor,
    let slot := [some CommandKind.seek, some .returnMark, some .mark, some .park, some .exchange, some .closeView,
      some .run, some .hold, some .step, some .setPace, some .setStops, some .setFilter, some .publish]
    let source := [some CommandKind.defineSource, some .claimSource, some .releaseSource, some .endSource,
      some .anchorSource, some .loadBatch, some .querySource]
    let readout := [some CommandKind.readEntries, some .readLate, some .querySource]
    let shared := [some CommandKind.loadBatch, some .openView, some .seek, some .returnMark, some .resume, some .exchange,
      some .readEntries, some .readLate]
    let whole := [some CommandKind.format, some .loadCatalogue, some .flush, some .seal, some .truncate]
    conflict d e = true ↔
      (d.kind ∈ slot ∧ e.kind ∈ slot ∧ d.target = e.target) ∨ (d.kind ∈ source ∧ e.kind ∈ source ∧ d.target = e.target) ∨
      (d.kind ∈ readout ∧ e.kind ∈ readout) ∨ (d.kind ∈ whole ∧ (e.kind ∈ whole ∨ e.kind ∈ shared)) ∨
      (d.kind ∈ shared ∧ e.kind ∈ whole))

/-- DISPATCH (R144 to R147), where every port considered has a sane completion distance: the turn's port dispatches
while it is a candidate below its weight, else the next candidate after it starts a new turn; the oldest command that
conflicts with none before it leaves the buffer and joins the in-flight set; a kind not recognised completes at once
with UNKNOWN_COMMAND. -/
def Obligations.DispatchTakesTurns : Prop :=
  ∀ (s : State), (∀ q : PortId, unconsumed s q ≤ 256) →
    let turn := s.dispatcher.turn
    let stays := isCandidate s turn = true ∧ s.dispatcher.count < s.ports[turn].weight
    ((∀ q : PortId, isCandidate s q = false) → exec .dispatch s = .next s) ∧
    (∀ (p : PortId) (d : Descriptor) (buffer : List Descriptor),
      (stays ∧ p = turn) ∨ (¬ stays ∧ ∃ i < 8, p = turn + 1 + Fin.ofNat 8 i ∧ isCandidate s p = true ∧
        ∀ j < i, isCandidate s (turn + 1 + Fin.ofNat 8 j) = false) →
      s.ports[p].eligible = some (d, buffer) →
      let n := s.dispatcher.nextSerial
      let x := { s.ports[p] with buffer := buffer, inFlight := s.ports[p].inFlight ++ [⟨n, d, false⟩] }
      ∃ u,
        u = { s with
          ring := { s.ring with replica := u.ring.replica, own := u.ring.own }
          ports := s.ports.set p (match s.ports[p].pendingDepth with
            | some m => if buffer.length ≤ m ∧ x.inFlight.length ≤ m then { x with depth := m, pendingDepth := none } else x
            | none => x)
          dispatcher := ⟨p, if stays then s.dispatcher.count + 1 else 1, n + 1⟩ } ∧
        Stands u (Config.portStatusAddr p) (portStatusBytes u p) ∧
        (d.kind ≠ none → exec .dispatch s = .next u) ∧
        (d.kind = none → (∀ q : PortId, q ≤ p → ∀ c ∈ s.ports[q].inFlight, c.serial ≠ n) →
          Completes .dispatch s u n p d .unknownCommand 0 0 0))

/-- A cause raised on a port (R162, R163): not recorded on an unbound or detaching port; else present, with an ATTENTION
notice of the whole set and a FIRED gate where the gate was ARMED and the ring UP; the record is rewritten. -/
def Obligations.CauseFiresArmedGate : Prop :=
  ∀ (s : State) (p : PortId) (c : Cause), let t := raiseCause s p c
    (reports s p = false → t = s) ∧
    (∀ node, s.ports[p].bound = some node → s.ports[p].detaching = false →
      let set := s.ports[p].causes ||| c.mask
      hasCause set c = true ∧
      t = { s with
        ring := { s.ring with replica := t.ring.replica, own := t.ring.own }
        ports := s.ports.set p { s.ports[p] with causes := set, fired := s.ports[p].fired || s.ring.up } } ∧
      (s.ports[p].fired = false → s.ring.up = true →
        Packet.notice s.ring.node node .attention (set.setWidth 32) 0 ∈ t.ring.own) ∧
      (s.ports[p].fired = true ∨ s.ring.up = false →
        ∀ k ∈ t.ring.own, k ∈ s.ring.own ∨ ∃ a b, k = .write s.ring.node a b 0) ∧
      Stands t (Config.portStatusAddr p) (portStatusBytes t p) ∧
      (∀ a, ¬ InBytes a (Config.portStatusAddr p) 24 → t.byteAt a = s.byteAt a))

/-- CLEAR_CAUSES (R165), with a sane completion distance: the causes named are removed, with NOTICE_LOST the four
notice-loss flags too, the gate stands, and the port's record, the records not consumed and the whole part status page
are rewritten; the command completes with the causes left, the gate and the count of records. While the ring is UP the
writes are handed over in the rule's order: with NOTICE_LOST the word with the loss flags, the port's record, the
completion records from the consumer word on, the page. That word is of 8 bytes: log entry 19; the ring size the page
shows: log entry 27; the gate's number, 1 for FIRED: log entry 28. -/
def Obligations.ClearCausesRewrites : Prop :=
  ∀ (s : State) (n : Nat) (p : PortId) (d : Descriptor), Taken s n .clearCauses p d → unconsumed s p ≤ 256 →
    let named := BitVec.ofNat 8 (d.field 8 1) &&& 127#8
    ∃ u, u = { s with
        ring := { s.ring with
          replica := u.ring.replica, own := u.ring.own
          lossFlags := if named &&& 32#8 = 0 then s.ring.lossFlags else 0 }
        ports := s.ports.set p { s.ports[p] with causes := s.ports[p].causes &&& ~~~named } } ∧
      Stands u (Config.portStatusAddr p) (portStatusBytes u p) ∧
      Stands u Config.partStatusAddr (padTo 4096 (partStatusBytes u)) ∧
      (∀ i < unconsumed s p, let a := (Config.completionEntry p
          ((s.indexAt (Config.consumerAddr p) + BitVec.ofNat 16 i).toNat % 256));
        u.bytesAt a 32 = s.bytesAt a 32) ∧
      (s.ring.up = true → u.ring.own = s.ring.own ++ writesOf s.ring.node (
        (if named &&& 32#8 = 0 then [] else [(Config.partStatusAddr, (partStatusBytes u).take 8)]) ++
        [(Config.portStatusAddr p, portStatusBytes u p)] ++
        ((List.range (unconsumed s p)).map fun i =>
          let a := Config.completionEntry p ((s.indexAt (Config.consumerAddr p) + BitVec.ofNat 16 i).toNat % 256)
          (a, s.bytesAt a 32)) ++
        [(Config.partStatusAddr, padTo 4096 (partStatusBytes u))])) ∧
      (∀ a, ¬ InBytes a (Config.portStatusAddr p) 24 → ¬ InBytes a Config.partStatusAddr 4096 → u.byteAt a = s.byteAt a) ∧
      Completes (.clearCauses n) s u n p d .ok (s.ports[p].causes &&& ~~~named).toNat
        (if s.ports[p].fired then 1 else 0) (unconsumed s p)

/-- How the end of a command and the part's writes are handed over (R148, R153, R158). A port that reports hands over
its completion record, then the port status record with the raised producer index and the lowered in-flight count, then,
for a descriptor with NOTIFY, a COMPLETION notice with the ring index of the record; a detaching or unbound port hands
over the status record alone. A write stands in the local replica at once; while the ring is UP it is held for sending
behind what is held already, as packets of at most 256 bytes in increasing addresses, and while the ring is DOWN it is
not. A notice is held while the ring is UP and is lost while it is DOWN. -/
def Obligations.WritesHandedOverInOrder : Prop :=
  (∀ (s : State) (a : Nat) (bs : List Byte), let t := s.partWrite a bs
    t = { s with ring := { s.ring with replica := t.ring.replica, own := t.ring.own } } ∧ Stands t a bs ∧
    (∀ x, ¬ InBytes x a bs.length → t.byteAt x = s.byteAt x) ∧
    (s.ring.up = false → t.ring.own = s.ring.own) ∧
    (s.ring.up = true → ∃ chunks : List (List Byte), chunks.flatten = bs ∧
      (∀ c ∈ chunks, 1 ≤ c.length ∧ c.length ≤ 256) ∧ (∀ c ∈ chunks.dropLast, c.length = 256) ∧
      t.ring.own = s.ring.own ++ chunks.zipIdx.map fun c => .write s.ring.node (a + 256 * c.2) c.1 0)) ∧
  (∀ (s : State) (n : Node) (k : NoticeType) (x : BitVec 32), s.sendNotice n k x = { s with ring := { s.ring with
    own := if s.ring.up then s.ring.own ++ [.notice s.ring.node n k x 0] else s.ring.own } }) ∧
  (∀ (s : State) (n : Nat) (p : PortId) (c : InFlight) (r : Result) (v1 v2 v3 : Nat), findCommand s n = some (p, c) →
    s.ports[p].pendingDepth = none →
    let t := complete s n r v1 v2 v3
    let sends := fun (ps : List Packet) => t.ring.own = if s.ring.up then s.ring.own ++ ps else s.ring.own
    let status := Packet.write s.ring.node (Config.portStatusAddr p) (portStatusBytes t p) 0
    let record := Packet.write s.ring.node (Config.completionEntry p (s.ports[p].produced.toNat % 256))
      (completionBytes c.descriptor r v1 v2 v3) 0
    (reports s p = false → sends [status]) ∧
    (∀ node, s.ports[p].bound = some node → s.ports[p].detaching = false → sends ([record, status] ++
      if c.descriptor.notify then [.notice s.ring.node node .completion (s.ports[p].produced.setWidth 32) 0] else [])))

/-- RING_INDEX (R121, R144, R165) for a distance no sane index gives. A dispatch that considers a port with more than
256 unconsumed completion records, and a ring write of its completion consumer word, raise it, and the port does not
dispatch; that one dispatch considers every port that is otherwise eligible, also where another port dispatches: log
entry 20. CLEAR_CAUSES then rewrites no record and raises it again; that the raise may fire the gate, and that the
completion shows the causes and the gate after it: log entry 31; the gate's number there: log entry 28. Each evaluation
of a delta ring with a distance above 4,096 raises it on the owner port: at a ring write of the consumer word, at the
room test of a released frame, which stalls if it has a record, and before a mark, which is lost. -/
def Obligations.RingIndexRaised : Prop :=
  (∀ (s : State) (p : PortId), reports s p = true → s.ports[p].eligible ≠ none →
    s.ports[p].inFlight.length < s.ports[p].depth → 256 < unconsumed s p →
    (∀ c ∈ s.ports[p].inFlight, c.serial ≠ s.dispatcher.nextSerial) →
    ∃ t, exec .dispatch s = .next t ∧ hasCause t.ports[p].causes .ringIndex = true ∧
      t.ports[p].inFlight = s.ports[p].inFlight ∧ t.ports[p].buffer = s.ports[p].buffer) ∧
  (∀ (s : State) (n : Node) (p : PortId) (hops : Nat) (data : List Byte), s.ring.up = true → n ≠ s.ring.node →
    hops < s.ring.size - 1 → data.length = 8 → s.ports[p].bound = some n → s.ports[p].detaching = false →
    (256 < unconsumed { s with ring := { s.ring with
        replica := replicaWrite s.ring.replica (Config.consumerAddr p) data } } p →
      ∃ t, exec (.packetArrival (.write n (Config.consumerAddr p) data hops)) s = .next t ∧
        Stands t (Config.consumerAddr p) data ∧
        t.ports = s.ports.set p { s.ports[p] with causes := s.ports[p].causes ||| 64, fired := true }) ∧
    (∀ v : Slot, s.views[v].state ≠ .free → s.views[v].ctx.owner = p →
      let a := Config.deltaConsumerAddr p v
      4096 < deltaDistance { s with ring := { s.ring with replica := replicaWrite s.ring.replica a data } } v →
      (s.views[v].state = .stalled → ∃ f, s.views[v].frame = some f ∧
        0 < (frameEntries s s.views[v].ctx f.count).countP (passesFilter s s.views[v].ctx)) →
      ∃ t, exec (.packetArrival (.write n a data hops)) s = .next t ∧ Stands t a data ∧ t.views = s.views ∧
        t.ports = s.ports.set p { s.ports[p] with causes := s.ports[p].causes ||| 64, fired := true })) ∧
  (∀ (s : State) (n : Nat) (p : PortId) (d : Descriptor), Taken s n .clearCauses p d → 256 < unconsumed s p →
    let left := s.ports[p].causes &&& ~~~(BitVec.ofNat 8 (d.field 8 1) &&& 127#8)
    ∃ u, Stands u (Config.portStatusAddr p) (portStatusBytes u p) ∧
      Stands u Config.partStatusAddr (padTo 4096 (partStatusBytes u)) ∧
      (∀ a, ¬ InBytes a (Config.portStatusAddr p) 24 → ¬ InBytes a Config.partStatusAddr 4096 → u.byteAt a = s.byteAt a) ∧
      (reports s p = true → u.ports[p] = { s.ports[p] with
        causes := left ||| 64, fired := s.ports[p].fired || s.ring.up }) ∧
      Completes (.clearCauses n) s u n p d .ok u.ports[p].causes.toNat (if u.ports[p].fired then 1 else 0) 0) ∧
  (∀ (s : State) (v : Slot), 4096 < deltaDistance s v → reports s s.views[v].ctx.owner = true →
    let raised := fun (t : State) => hasCause t.ports[s.views[v].ctx.owner].causes .ringIndex = true
    (∀ f, 0 < (frameEntries s s.views[v].ctx f.count).countP (passesFilter s s.views[v].ctx) →
      raised (publishFrame s v f) ∧ (publishFrame s v f).views = s.views.set v { s.views[v] with
        state := .stalled, timer := none, frame := some { f with phase := .stalled } }) ∧
    (∀ cause device, raised (stopView s v cause device) ∧
      (stopView s v cause device).views[v].producer = s.views[v].producer ∧
      (stopView s v cause device).views[v].lostMarks = min (s.views[v].lostMarks + 1) 65535))

/-! ### The ring -/

/-- SIGNAL_LOSS (R119, R159, R163, R166, R167): while the ring is UP it goes DOWN, the packets held for sending are
discarded, the ring state word of the part status page is rewritten in the local replica, every view that moves is
stopped with RING_DOWN, in increasing slot number (log entry 25), and no gate fires; while it is DOWN it stays DOWN. The
journal and its sources are not touched; nor are the packets that wait to be forwarded (log entry 18). SIGNAL_GAINED and
SYNC_TIMEOUT (R166): while the ring is DOWN a node within the ring sends a sync packet and waits for it; a node whose
number lies outside the ring sends nothing. That a repeated SIGNAL_GAINED does nothing: log entry 18; that the row
SYNC_TIMEOUT is the 1 ms that has passed: log entry 3. The return of the part's sync packet while the ring is DOWN
(R166, R168), awaited or not (log entry 18): a ring that holds the node goes UP, RING_RESTORED is present at every bound
port and its gate is FIRED, the part status page is rewritten whole (the ring size it shows: log entry 27), and the
views stand as they were; a node outside the ring stays DOWN. -/
def Obligations.RingGoesDownAndUp : Prop :=
  (∀ s : State, ∃ t, exec .signalLoss s = .next t ∧ t.ring.up = false ∧ t.ring.signal = false ∧
    t.ring.syncWaiting = false ∧ t.ring.forward = s.ring.forward ∧ SameJournal s t ∧ t.directory = s.directory ∧
    (s.ring.up = false → t = { s with ring := { s.ring with signal := false, syncWaiting := false } }) ∧
    (s.ring.up = true → t.ring.own = [] ∧ RingWordShown t ∧
      (∀ v : Slot, Moving s.views[v] → t.views[v].state = .held ∧ t.views[v].ctx.lastStop = .ringDown ∧
        t.views[v].frame = none ∧ t.views[v].timer = none ∧ t.views[v].ctx.cursor = s.views[v].ctx.cursor ∧
        (reports s s.views[v].ctx.owner = true → hasCause t.ports[s.views[v].ctx.owner].causes .viewStopped = true)) ∧
      (∀ v : Slot, ¬ Moving s.views[v] → t.views[v] = s.views[v]) ∧
      (∀ p : PortId, t.ports[p].fired = s.ports[p].fired))) ∧
  (∀ s : State, s.ring.up = false →
    let sends := fun (r : Ring) => if s.ring.node.val < s.ring.size
      then { r with own := s.ring.own ++ [.sync s.ring.node 0], syncWaiting := true } else r
    (s.ring.signal = false →
      exec .signalGained s = .next { s with ring := sends { s.ring with signal := true } }) ∧
    (s.ring.signal = true → exec .signalGained s = .next s) ∧
    (s.ring.signal = true → s.ring.syncWaiting = true → exec .syncTimeout s = .next { s with ring := sends s.ring })) ∧
  (∀ (s : State) (hops : Nat), s.ring.up = false →
    (s.ring.size ≤ s.ring.node.val → exec (.packetArrival (.sync s.ring.node hops)) s = .next s) ∧
    (s.ring.node.val < s.ring.size → ∃ t, exec (.packetArrival (.sync s.ring.node hops)) s = .next t ∧
      t.ring.up = true ∧ t.ring.syncWaiting = false ∧ t.views = s.views ∧ SameJournal s t ∧
      Stands t Config.partStatusAddr (padTo 4096 (partStatusBytes t)) ∧
      (∀ p : PortId, reports s p = true →
        t.ports[p] = { s.ports[p] with causes := s.ports[p].causes ||| 8, fired := true }) ∧
      (∀ p : PortId, reports s p = false → t.ports[p] = s.ports[p])))

/-- Packets that are not acted on (R156): the part's own is removed, but for its sync packet while the ring is DOWN; an
orphan is removed; any other is forwarded with its hop count raised, and while the ring is DOWN, or when it is a notice
to another node, a notice of another type or another node's sync packet, nothing else happens. A notice for the part
while the ring is UP (R156, R160): it is forwarded, and appended to the queue of its type while that holds fewer than
64. The transmitter (R158): it takes the part's own packets and the packets to be forwarded in their orders, and one of
each in turn while both wait. That the turn follows the packet sent last, be it sent while one party alone waited, and
the field that keeps that packet: log entry 22. -/
def Obligations.PacketsForwardedQueuedSent : Prop :=
  (∀ (s : State) (p : Packet),
    let sender := match p with
      | .write n _ _ _ => n
      | .notice n _ _ _ _ => n
      | .sync n _ => n
    let hops := match p with
      | .write _ _ _ h => h
      | .notice _ _ _ _ h => h
      | .sync _ h => h
    let onward := match p with
      | .write n a d h => Packet.write n a d (h + 1)
      | .notice n t k x h => .notice n t k x (h + 1)
      | .sync n h => .sync n (h + 1)
    let forwarded := { s with ring := { s.ring with forward := s.ring.forward ++ [onward] } }
    (sender = s.ring.node → (s.ring.up = true ∨ ∀ n h, p ≠ .sync n h) → exec (.packetArrival p) s = .next s) ∧
    (sender ≠ s.ring.node → s.ring.size - 1 ≤ hops → exec (.packetArrival p) s = .next s) ∧
    (sender ≠ s.ring.node → hops < s.ring.size - 1 → s.ring.up = false → exec (.packetArrival p) s = .next forwarded) ∧
    (sender ≠ s.ring.node → hops < s.ring.size - 1 →
      ((∃ n h, p = .sync n h) ∨ (∃ n t k x h, p = .notice n t k x h ∧
        (t ≠ s.ring.node ∨ k = .completion ∨ k = .attention))) → exec (.packetArrival p) s = .next forwarded)) ∧
  (∀ (s : State) (n : Node) (x : BitVec 32) (hops : Nat), s.ring.up = true → n ≠ s.ring.node → hops < s.ring.size - 1 →
    let forward := fun k => s.ring.forward ++ [.notice n s.ring.node k x (hops + 1)]
    let arrives := fun k => exec (.packetArrival (.notice n s.ring.node k x hops)) s
    (s.ring.attachQueue.length < 64 → arrives .attach = .next { s with ring := { s.ring with
      forward := forward .attach, attachQueue := s.ring.attachQueue ++ [⟨n, x⟩] } }) ∧
    (s.ring.detachQueue.length < 64 → arrives .detach = .next { s with ring := { s.ring with
      forward := forward .detach, detachQueue := s.ring.detachQueue ++ [⟨n, x⟩] } }) ∧
    (s.ring.kickQueue.length < 64 → arrives .kick = .next { s with ring := { s.ring with
      forward := forward .kick, kickQueue := s.ring.kickQueue ++ [⟨n, x⟩] } }) ∧
    (s.ring.rearmQueue.length < 64 → arrives .rearm = .next { s with ring := { s.ring with
      forward := forward .rearm, rearmQueue := s.ring.rearmQueue ++ [⟨n, x⟩] } })) ∧
  (∀ s : State,
    let ownGoes := fun x rest => exec .transmitPacket s = .next { s with
      ring := { s.ring with own := rest, sent := some x, lastOwn := true } }
    let forwardGoes := fun y rest => exec .transmitPacket s = .next { s with
      ring := { s.ring with forward := rest, sent := some y, lastOwn := false } }
    (s.ring.own = [] → s.ring.forward = [] → exec .transmitPacket s = .next s) ∧
    (∀ x rest, s.ring.own = x :: rest → s.ring.forward = [] ∨ s.ring.lastOwn = false → ownGoes x rest) ∧
    (∀ y rest, s.ring.forward = y :: rest → s.ring.own = [] ∨ s.ring.lastOwn = true → forwardGoes y rest))

/-- A notice for the part while the ring is UP that its queue cannot take (R161): at 64 notices it is discarded, but
forwarded all the same, the queue's notice-loss flag is set and shown, and every bound port that is not detaching gets
the queue's recovery and then NOTICE_LOST: for KICK it is marked to look, and a HALTED port reads its producer word
again (R143); for REARM its gate is ARMED first, so that it fires with the whole cause set; for ATTACH and DETACH there
is none. The ports are told in increasing number (log entry 25). -/
def Obligations.FullQueueLosesNotice : Prop :=
  ∀ (s : State) (n : Node) (x : BitVec 32) (hops : Nat), s.ring.up = true → n ≠ s.ring.node → hops < s.ring.size - 1 →
    let lost := fun (k : NoticeType) (flag : BitVec 4) (told : PortId → State → Prop) =>
      ∃ t, exec (.packetArrival (.notice n s.ring.node k x hops)) s = .next t ∧
        t = { s with
          ring := { s.ring with
            forward := s.ring.forward ++ [.notice n s.ring.node k x (hops + 1)], lossFlags := s.ring.lossFlags ||| flag
            replica := t.ring.replica, own := t.ring.own }
          ports := t.ports } ∧
        Stands t Config.partStatusAddr ((partStatusBytes t).take 8) ∧
        (∀ p : PortId, reports s p = false → t.ports[p] = s.ports[p]) ∧ ∀ p : PortId, reports s p = true → told p t
    let plain := fun (p : PortId) (t : State) =>
      t.ports[p] = { s.ports[p] with causes := s.ports[p].causes ||| 32, fired := true }
    (64 ≤ s.ring.attachQueue.length → lost .attach 1 plain) ∧
    (64 ≤ s.ring.detachQueue.length → lost .detach 2 plain) ∧
    (64 ≤ s.ring.kickQueue.length → lost .kick 4 fun p t =>
      let word := s.indexAt (Config.producerAddr p)
      let bad := 256 < (word - s.ports[p].head).toNat
      (s.ports[p].halted = false → t.ports[p] = { s.ports[p] with
        look := true, causes := s.ports[p].causes ||| 32, fired := true }) ∧
      (s.ports[p].halted = true → ¬ bad → t.ports[p] = { s.ports[p] with
        look := true, halted := false, causes := s.ports[p].causes ||| 32, fired := true }) ∧
      (s.ports[p].halted = true → bad → t.ports[p] = { s.ports[p] with
        look := false, haltValue := word, causes := s.ports[p].causes ||| 64 ||| 32, fired := true })) ∧
    (64 ≤ s.ring.rearmQueue.length → lost .rearm 8 fun p t => plain p t ∧
      ∀ node, s.ports[p].bound = some node →
        Packet.notice s.ring.node node .attention ((s.ports[p].causes ||| 32).setWidth 32) 0 ∈ t.ring.own)

/-- A ring write from another node while the ring is UP (R154, R157): it is forwarded, and applied whole where it is
aligned, within the space and to pages its sender owns; otherwise it is discarded whole and BAD_WRITE is raised on the
sender's port. Each word it covers is then told to its block in turn, in increasing address order (log entry 20): a
command producer word makes a HALTED port read it again (R143), a completion consumer word has free completion slots
evaluated (R144), a delta consumer word has the owner's STALLED view make its room test again, which publishes the frame
where it passes, and any other view of the owner its free space evaluated (R122, R129); a word of no block changes
nothing. The passing room test writes no status record of its own: log entry 19. That a write to the old region of a
node bound anew is BAD_WRITE on its new port: log entry 29. -/
def Obligations.RingWriteAppliedWhole : Prop :=
  (∀ (s : State) (n : Node) (a hops : Nat) (data : List Byte), s.ring.up = true → n ≠ s.ring.node →
    hops < s.ring.size - 1 →
    let owner := fun x => pageOwner s x = .node n
    let forwarded := { s with ring := { s.ring with forward := s.ring.forward ++ [.write n a data (hops + 1)] } }
    let applied := { forwarded with ring := { forwarded.ring with replica := replicaWrite s.ring.replica a data } }
    let fits := a % 8 = 0 ∧ data.length % 8 = 0 ∧ 8 ≤ data.length ∧ data.length ≤ 256 ∧ a + data.length ≤ 16777216 ∧
      owner a ∧ owner (a + data.length - 1)
    (fits → Stands applied a data ∧ (∀ x, ¬ InBytes x a data.length → applied.byteAt x = s.byteAt x) ∧
      ∃ t, exec (.packetArrival (.write n a data hops)) s = .next t ∧ Stands t a data ∧
        t = ((List.range (data.length / 8)).map fun i => a + 8 * i).foldl wordWritten applied ∧
        (a % 1048576 + data.length ≤ 0x2000 ∨ 0x2050 ≤ a % 1048576 → t = applied)) ∧
    (¬ fits → (∀ p, portOf s n = some p → ∃ t, exec (.packetArrival (.write n a data hops)) s = .next t ∧
        hasCause t.ports[p].causes .badWrite = true ∧ (∀ q, q ≠ p → t.ports[q] = s.ports[q]) ∧
        t = { s with
          ring := { s.ring with replica := t.ring.replica, own := t.ring.own, forward := forwarded.ring.forward }
          ports := t.ports } ∧
        (∀ x, ¬ InBytes x (Config.portStatusAddr p) 24 → t.byteAt x = s.byteAt x)) ∧
      (portOf s n = none → exec (.packetArrival (.write n a data hops)) s = .next forwarded))) ∧
  (∀ (s : State) (b : Nat), b % 1048576 < 0x2000 ∨ 0x2050 ≤ b % 1048576 → wordWritten s b = s) ∧
  (∀ (s : State) (p : PortId),
    let x := s.ports[p]
    let word := s.indexAt (Config.producerAddr p)
    let consumer := s.indexAt (Config.consumerAddr p)
    let only := fun (t : State) (y : Port) =>
      t = { s with ring := { s.ring with replica := t.ring.replica, own := t.ring.own }, ports := s.ports.set p y } ∧
      Stands t (Config.portStatusAddr p) (portStatusBytes t p) ∧
      ∀ a, ¬ InBytes a (Config.portStatusAddr p) 24 → t.byteAt a = s.byteAt a
    (x.halted = false → wordWritten s (Config.producerAddr p) = s) ∧
    (x.halted = true → (word - x.head).toNat ≤ 256 →
      only (wordWritten s (Config.producerAddr p)) { x with halted := false, look := true }) ∧
    (x.halted = true → 256 < (word - x.head).toNat → reports s p = true →
      only (wordWritten s (Config.producerAddr p)) { x with
        haltValue := word, look := false, causes := x.causes ||| 64, fired := x.fired || s.ring.up }) ∧
    ((x.produced - consumer).toNat ≤ 256 → only (wordWritten s (Config.consumerAddr p)) x) ∧
    (256 < (x.produced - consumer).toNat → reports s p = true →
      only (wordWritten s (Config.consumerAddr p)) { x with
        causes := x.causes ||| 64, fired := x.fired || s.ring.up }) ∧
    ∀ v : Slot,
      let w := s.views[v]
      let told := wordWritten s (Config.deltaConsumerAddr p v)
      let distance := (w.producer - s.indexAt (Config.deltaConsumerAddr p v)).toNat
      (w.state = .free ∨ w.ctx.owner ≠ p → told = s) ∧
      (w.state ≠ .free → w.ctx.owner = p → distance ≤ 4096 →
        (w.state ≠ .stalled → told = s) ∧
        ∀ f, w.state = .stalled → w.frame = some f →
          let records := (frameEntries s w.ctx f.count).countP (passesFilter s w.ctx)
          (records ≤ 4096 - distance → told = applyFrame s v f) ∧ (4096 - distance < records → told = s)) ∧
      (w.state ≠ .free → w.ctx.owner = p → 4096 < distance → reports s p = true →
        (w.state ≠ .stalled → only told { x with causes := x.causes ||| 64, fired := x.fired || s.ring.up }) ∧
        ∀ f, w.state = .stalled → w.frame = some f →
          let records := (frameEntries s w.ctx f.count).countP (passesFilter s w.ctx)
          ∃ t, only t { x with causes := x.causes ||| 64, fired := x.fired || s.ring.up } ∧
            told = if records = 0 then applyFrame t v f else t))
end

