-- ==== Sys2Proof/Laws/Memory.lean ====
section
/-! SUPPORT. Reading and writing a sparse table: a read after a write, and that every write keeps the canonical form. -/

namespace Sys2Proof.Machine

variable {α : Type}

/-! ### Reading after a write -/

theorem lookup_cons_pair (c : Nat × α) (m : List (Nat × α)) (k : Nat) :
    (c :: m).lookup k = if k = c.1 then some c.2 else m.lookup k := by
  obtain ⟨j, v⟩ := c
  rw [List.lookup_cons]
  by_cases h : k = j
  · simp [h]
  · rw [show (k == j) = false by simpa using h, if_neg h]

theorem lookup_filter_of_keeps (f : Nat → Bool) (m : List (Nat × α)) (k : Nat) (hk : f k = true) :
    (m.filter (fun c => f c.1)).lookup k = m.lookup k := by
  induction m with
  | nil => rfl
  | cons c m ih =>
    by_cases hc : f c.1 = true
    · rw [List.filter_cons, if_pos hc, lookup_cons_pair, lookup_cons_pair, ih]
    · rw [List.filter_cons, if_neg hc, lookup_cons_pair, ih, if_neg (by rintro rfl; exact hc hk)]

theorem lookup_filter_of_drops (f : Nat → Bool) (m : List (Nat × α)) (k : Nat) (hk : f k = false) :
    (m.filter (fun c => f c.1)).lookup k = none := by
  induction m with
  | nil => rfl
  | cons c m ih =>
    by_cases hc : f c.1 = true
    · rw [List.filter_cons, if_pos hc, lookup_cons_pair, ih, if_neg (by rintro rfl; simp [hc] at hk)]
    · rw [List.filter_cons, if_neg hc, ih]

variable [DecidableEq α] (d : α)

theorem lookup_cells_outside (a k : Nat) (vs : List α) (hk : ¬ (a ≤ k ∧ k < a + vs.length)) :
    (Sparse.cells d a vs).lookup k = none := by
  induction vs generalizing a with
  | nil => rfl
  | cons v vs ih =>
    have hrest : ¬ (a + 1 ≤ k ∧ k < a + 1 + vs.length) := by
      simp only [List.length_cons] at hk; omega
    have hne : (k == a) = false := by
      simp only [List.length_cons] at hk; simp only [beq_eq_false_iff_ne]; omega
    unfold Sparse.cells
    split
    · exact ih _ hrest
    · simp only [List.lookup_cons, hne, ih _ hrest]

theorem lookup_cells_inside (a i : Nat) (vs : List α) (hi : i < vs.length) :
    ((Sparse.cells d a vs).lookup (a + i)).getD d = vs[i] := by
  induction vs generalizing a i with
  | nil => simp at hi
  | cons v vs ih =>
    unfold Sparse.cells
    cases i with
    | zero =>
      split
      · rename_i hv
        rw [lookup_cells_outside d (a + 1) (a + 0) vs (by omega)]
        simp [hv]
      · simp
    | succ i =>
      have hi' : i < vs.length := by simpa using hi
      have h := ih (a + 1) i hi'
      rw [show a + 1 + i = a + (i + 1) by omega] at h
      split
      · simpa using h
      · have hne : (a + (i + 1) == a) = false := by simp only [beq_eq_false_iff_ne]; omega
        simpa [List.lookup_cons, hne] using h

/-- A read of a number outside a write gives what it gave before. -/
theorem Sparse.get_setRange_outside (m : List (Nat × α)) (a k : Nat) (vs : List α)
    (hk : ¬ (a ≤ k ∧ k < a + vs.length)) : Sparse.get d (Sparse.setRange d m a vs) k = Sparse.get d m k := by
  unfold Sparse.get Sparse.setRange
  simp only [List.lookup_append, lookup_cells_outside d a k vs hk]
  by_cases h : k < a
  · rw [lookup_filter_of_keeps (fun x => decide (x < a)) m k (by simpa using h),
      lookup_filter_of_drops (fun x => decide (a + vs.length ≤ x)) m k (by simp; omega)]
    simp
  · rw [lookup_filter_of_drops (fun x => decide (x < a)) m k (by simpa using h),
      lookup_filter_of_keeps (fun x => decide (a + vs.length ≤ x)) m k (by simp; omega)]
    simp

/-- A read of a number inside a write gives the value written. -/
theorem Sparse.get_setRange_inside (m : List (Nat × α)) (a i : Nat) (vs : List α) (hi : i < vs.length) :
    Sparse.get d (Sparse.setRange d m a vs) (a + i) = vs[i] := by
  unfold Sparse.get Sparse.setRange
  have h := lookup_cells_inside d a i vs hi
  rw [List.lookup_append, List.lookup_append,
    lookup_filter_of_drops (fun x => decide (x < a)) m (a + i) (by simp),
    lookup_filter_of_drops (fun x => decide (a + vs.length ≤ x)) m (a + i) (by simp; omega)]
  simpa using h

/-- A read after a write of one value. -/
theorem Sparse.get_set (m : List (Nat × α)) (k j : Nat) (v : α) :
    Sparse.get d (Sparse.set d m k v) j = if j = k then v else Sparse.get d m j := by
  unfold Sparse.set
  split
  · rename_i h
    subst h
    simpa using Sparse.get_setRange_inside d m j 0 [v] (by simp)
  · exact Sparse.get_setRange_outside d m k j [v] (by simp; omega)

omit [DecidableEq α] in
@[simp] theorem Sparse.read_length (m : List (Nat × α)) (a n : Nat) : (Sparse.read d m a n).length = n := by
  induction n generalizing a with
  | zero => rfl
  | succ n ih => simp [Sparse.read, ih]

omit [DecidableEq α] in
theorem Sparse.read_getElem (m : List (Nat × α)) (a n i : Nat) (hi : i < n) :
    (Sparse.read d m a n)[i]'(by simpa using hi) = Sparse.get d m (a + i) := by
  induction n generalizing a i with
  | zero => omega
  | succ n ih =>
    cases i with
    | zero => rfl
    | succ i =>
      have h := ih (a + 1) i (by omega)
      rw [show a + 1 + i = a + (i + 1) by omega] at h
      simpa [Sparse.read] using h

/-- Reading back a write gives the values written. -/
theorem Sparse.read_setRange_self (m : List (Nat × α)) (a : Nat) (vs : List α) :
    Sparse.read d (Sparse.setRange d m a vs) a vs.length = vs := by
  apply List.ext_getElem (by simp)
  intro i h1 h2
  rw [Sparse.read_getElem d _ a vs.length i h2, Sparse.get_setRange_inside d m a i vs h2]

/-- Reading outside a write gives what it gave before. -/
theorem Sparse.read_setRange_disjoint (m : List (Nat × α)) (a b n : Nat) (vs : List α)
    (h : b + n ≤ a ∨ a + vs.length ≤ b) :
    Sparse.read d (Sparse.setRange d m a vs) b n = Sparse.read d m b n := by
  apply List.ext_getElem (by simp)
  intro i h1 h2
  have hi : i < n := by simpa using h1
  rw [Sparse.read_getElem d _ b n i hi, Sparse.read_getElem d _ b n i hi]
  exact Sparse.get_setRange_outside d m a (b + i) vs (by omega)

/-! ### The canonical form -/

/-- The canonical form, said once for all pairs of a table: rising numbers and no value that an unlisted number reads
as. -/
theorem Sparse.wf_iff (m : List (Nat × α)) :
    Sparse.wf d m = true ↔ m.Pairwise (fun c c' => c.1 < c'.1) ∧ ∀ c ∈ m, c.2 ≠ d := by
  induction m with
  | nil => simp [Sparse.wf]
  | cons c m ih =>
    cases m with
    | nil => simp [Sparse.wf]
    | cons c' m =>
      rw [show Sparse.wf d (c :: c' :: m) = (decide (c.1 < c'.1 ∧ c.2 ≠ d) && Sparse.wf d (c' :: m)) from rfl,
        Bool.and_eq_true, ih, decide_eq_true_eq]
      constructor
      · rintro ⟨⟨h1, h2⟩, h3, h4⟩
        refine ⟨List.pairwise_cons.2 ⟨?_, h3⟩, ?_⟩
        · intro x hx
          rcases List.mem_cons.1 hx with rfl | hx
          · exact h1
          · exact lt_trans h1 ((List.pairwise_cons.1 h3).1 x hx)
        · intro x hx
          rcases List.mem_cons.1 hx with rfl | hx
          · exact h2
          · exact h4 x hx
      · rintro ⟨h1, h2⟩
        have h1' := List.pairwise_cons.1 h1
        exact ⟨⟨h1'.1 c' (by simp), h2 c (by simp)⟩, h1'.2, fun x hx => h2 x (by simp [hx])⟩

theorem mem_cells (a : Nat) (vs : List α) (c : Nat × α) (hc : c ∈ Sparse.cells d a vs) :
    a ≤ c.1 ∧ c.1 < a + vs.length ∧ c.2 ≠ d := by
  induction vs generalizing a with
  | nil => simp [Sparse.cells] at hc
  | cons v vs ih =>
    unfold Sparse.cells at hc
    split at hc
    · have h := ih _ hc
      simp only [List.length_cons]
      exact ⟨by omega, by omega, h.2.2⟩
    · rename_i hv
      rcases List.mem_cons.1 hc with rfl | hc
      · simp only [List.length_cons]
        exact ⟨le_refl _, by omega, hv⟩
      · have h := ih _ hc
        simp only [List.length_cons]
        exact ⟨by omega, by omega, h.2.2⟩

theorem pairwise_cells (a : Nat) (vs : List α) : (Sparse.cells d a vs).Pairwise (fun c c' => c.1 < c'.1) := by
  induction vs generalizing a with
  | nil => exact List.Pairwise.nil
  | cons v vs ih =>
    unfold Sparse.cells
    split
    · exact ih _
    · exact List.pairwise_cons.2 ⟨fun c hc => (mem_cells d _ _ c hc).1, ih _⟩

/-- A write keeps the canonical form. -/
theorem Sparse.wf_setRange (m : List (Nat × α)) (a : Nat) (vs : List α) (h : Sparse.wf d m = true) :
    Sparse.wf d (Sparse.setRange d m a vs) = true := by
  rw [Sparse.wf_iff] at h ⊢
  obtain ⟨h1, h2⟩ := h
  unfold Sparse.setRange
  constructor
  · refine List.pairwise_append.2 ⟨List.pairwise_append.2 ⟨h1.filter _, pairwise_cells d a vs, ?_⟩, h1.filter _, ?_⟩
    · intro x hx y hy
      have hx' := (List.mem_filter.1 hx).2
      have hy' := mem_cells d a vs y hy
      simp only [decide_eq_true_eq] at hx'
      omega
    · intro x hx y hy
      have hy' := (List.mem_filter.1 hy).2
      simp only [decide_eq_true_eq] at hy'
      rcases List.mem_append.1 hx with hx | hx
      · have hx' := (List.mem_filter.1 hx).2
        simp only [decide_eq_true_eq] at hx'
        omega
      · have hx' := mem_cells d a vs x hx
        omega
  · intro c hc
    rcases List.mem_append.1 hc with hc | hc
    · rcases List.mem_append.1 hc with hc | hc
      · exact h2 c (List.mem_of_mem_filter hc)
      · exact (mem_cells d a vs c hc).2.2
    · exact h2 c (List.mem_of_mem_filter hc)

/-- A write of one value keeps the canonical form. -/
theorem Sparse.wf_set (m : List (Nat × α)) (k : Nat) (v : α) (h : Sparse.wf d m = true) :
    Sparse.wf d (Sparse.set d m k v) = true := Sparse.wf_setRange d m k [v] h

/-- A table with some of its pairs left out keeps the canonical form. -/
theorem Sparse.wf_filter (m : List (Nat × α)) (f : Nat × α → Bool) (h : Sparse.wf d m = true) :
    Sparse.wf d (m.filter f) = true := by
  rw [Sparse.wf_iff] at h ⊢
  exact ⟨h.1.filter _, fun c hc => h.2 c (List.mem_of_mem_filter hc)⟩

/-- A table whose values are changed, those that read as an unlisted number left out, keeps the canonical form. -/
theorem Sparse.wf_map_filter (m : List (Nat × α)) (g : Nat × α → α) (f : Nat × α → Bool)
    (hf : ∀ c, f c = true → c.2 ≠ d) (h : Sparse.wf d m = true) :
    Sparse.wf d ((m.map fun c => (c.1, g c)).filter f) = true := by
  rw [Sparse.wf_iff] at h ⊢
  exact ⟨((List.pairwise_map (f := fun c : Nat × α => (c.1, g c))
    (R := fun c c' : Nat × α => c.1 < c'.1)).2 h.1).filter _, fun c hc => hf c (List.mem_filter.1 hc).2⟩

/-- The local replica stays in its canonical form under every write (R153). -/
theorem Memory.wf_write (m : List Host.Cell) (a : Nat) (bs : List Byte) (h : Memory.wf m = true) :
    Memory.wf (replicaWrite m a bs) = true := Sparse.wf_setRange unlistedByte m a bs h

end Sys2Proof.Machine
end

