-- ==== Sys2Proof/Laws/State.lean ====
section
/-! SUPPORT. One lemma per field per update of the state, each true by unfolding the update once. -/

namespace Sys2Proof.Machine

/-! ### State.setPort -/

@[simp] theorem State.setPort_pending (s : State) (p : PortId) (x : Port) : (s.setPort p x).pending = s.pending := rfl
@[simp] theorem State.setPort_ring (s : State) (p : PortId) (x : Port) : (s.setPort p x).ring = s.ring := rfl
@[simp] theorem State.setPort_ports (s : State) (p : PortId) (x : Port) :
    (s.setPort p x).ports = s.ports.set p x := rfl
@[simp] theorem State.setPort_dispatcher (s : State) (p : PortId) (x : Port) :
    (s.setPort p x).dispatcher = s.dispatcher := rfl
@[simp] theorem State.setPort_readouts (s : State) (p : PortId) (x : Port) :
    (s.setPort p x).readouts = s.readouts := rfl
@[simp] theorem State.setPort_sources (s : State) (p : PortId) (x : Port) : (s.setPort p x).sources = s.sources := rfl
@[simp] theorem State.setPort_batches (s : State) (p : PortId) (x : Port) : (s.setPort p x).batches = s.batches := rfl
@[simp] theorem State.setPort_merge (s : State) (p : PortId) (x : Port) : (s.setPort p x).merge = s.merge := rfl
@[simp] theorem State.setPort_journal (s : State) (p : PortId) (x : Port) : (s.setPort p x).journal = s.journal := rfl
@[simp] theorem State.setPort_catalogue (s : State) (p : PortId) (x : Port) :
    (s.setPort p x).catalogue = s.catalogue := rfl
@[simp] theorem State.setPort_directory (s : State) (p : PortId) (x : Port) :
    (s.setPort p x).directory = s.directory := rfl
@[simp] theorem State.setPort_views (s : State) (p : PortId) (x : Port) : (s.setPort p x).views = s.views := rfl
@[simp] theorem State.setPort_parked (s : State) (p : PortId) (x : Port) : (s.setPort p x).parked = s.parked := rfl
@[simp] theorem State.setPort_copies (s : State) (p : PortId) (x : Port) : (s.setPort p x).copies = s.copies := rfl
@[simp] theorem State.setPort_arbiter (s : State) (p : PortId) (x : Port) : (s.setPort p x).arbiter = s.arbiter := rfl
@[simp] theorem State.setPort_timebase (s : State) (p : PortId) (x : Port) :
    (s.setPort p x).timebase = s.timebase := rfl
@[simp] theorem State.setPort_dram (s : State) (p : PortId) (x : Port) : (s.setPort p x).dram = s.dram := rfl

/-! ### State.setView -/

@[simp] theorem State.setView_pending (s : State) (v : Slot) (x : View) : (s.setView v x).pending = s.pending := rfl
@[simp] theorem State.setView_ring (s : State) (v : Slot) (x : View) : (s.setView v x).ring = s.ring := rfl
@[simp] theorem State.setView_ports (s : State) (v : Slot) (x : View) : (s.setView v x).ports = s.ports := rfl
@[simp] theorem State.setView_dispatcher (s : State) (v : Slot) (x : View) :
    (s.setView v x).dispatcher = s.dispatcher := rfl
@[simp] theorem State.setView_readouts (s : State) (v : Slot) (x : View) :
    (s.setView v x).readouts = s.readouts := rfl
@[simp] theorem State.setView_sources (s : State) (v : Slot) (x : View) : (s.setView v x).sources = s.sources := rfl
@[simp] theorem State.setView_batches (s : State) (v : Slot) (x : View) : (s.setView v x).batches = s.batches := rfl
@[simp] theorem State.setView_merge (s : State) (v : Slot) (x : View) : (s.setView v x).merge = s.merge := rfl
@[simp] theorem State.setView_journal (s : State) (v : Slot) (x : View) : (s.setView v x).journal = s.journal := rfl
@[simp] theorem State.setView_catalogue (s : State) (v : Slot) (x : View) :
    (s.setView v x).catalogue = s.catalogue := rfl
@[simp] theorem State.setView_directory (s : State) (v : Slot) (x : View) :
    (s.setView v x).directory = s.directory := rfl
@[simp] theorem State.setView_views (s : State) (v : Slot) (x : View) : (s.setView v x).views = s.views.set v x := rfl
@[simp] theorem State.setView_parked (s : State) (v : Slot) (x : View) : (s.setView v x).parked = s.parked := rfl
@[simp] theorem State.setView_copies (s : State) (v : Slot) (x : View) : (s.setView v x).copies = s.copies := rfl
@[simp] theorem State.setView_arbiter (s : State) (v : Slot) (x : View) : (s.setView v x).arbiter = s.arbiter := rfl
@[simp] theorem State.setView_timebase (s : State) (v : Slot) (x : View) :
    (s.setView v x).timebase = s.timebase := rfl
@[simp] theorem State.setView_dram (s : State) (v : Slot) (x : View) : (s.setView v x).dram = s.dram := rfl

/-! ### State.setSource -/

@[simp] theorem State.setSource_pending (s : State) (i : Nat) (x : Source) :
    (s.setSource i x).pending = s.pending := rfl
@[simp] theorem State.setSource_ring (s : State) (i : Nat) (x : Source) : (s.setSource i x).ring = s.ring := rfl
@[simp] theorem State.setSource_ports (s : State) (i : Nat) (x : Source) : (s.setSource i x).ports = s.ports := rfl
@[simp] theorem State.setSource_dispatcher (s : State) (i : Nat) (x : Source) :
    (s.setSource i x).dispatcher = s.dispatcher := rfl
@[simp] theorem State.setSource_readouts (s : State) (i : Nat) (x : Source) :
    (s.setSource i x).readouts = s.readouts := rfl
@[simp] theorem State.setSource_sources (s : State) (i : Nat) (x : Source) :
    (s.setSource i x).sources = Sparse.set {} s.sources i x := rfl
@[simp] theorem State.setSource_batches (s : State) (i : Nat) (x : Source) :
    (s.setSource i x).batches = s.batches := rfl
@[simp] theorem State.setSource_merge (s : State) (i : Nat) (x : Source) : (s.setSource i x).merge = s.merge := rfl
@[simp] theorem State.setSource_journal (s : State) (i : Nat) (x : Source) :
    (s.setSource i x).journal = s.journal := rfl
@[simp] theorem State.setSource_catalogue (s : State) (i : Nat) (x : Source) :
    (s.setSource i x).catalogue = s.catalogue := rfl
@[simp] theorem State.setSource_directory (s : State) (i : Nat) (x : Source) :
    (s.setSource i x).directory = s.directory := rfl
@[simp] theorem State.setSource_views (s : State) (i : Nat) (x : Source) : (s.setSource i x).views = s.views := rfl
@[simp] theorem State.setSource_parked (s : State) (i : Nat) (x : Source) : (s.setSource i x).parked = s.parked := rfl
@[simp] theorem State.setSource_copies (s : State) (i : Nat) (x : Source) : (s.setSource i x).copies = s.copies := rfl
@[simp] theorem State.setSource_arbiter (s : State) (i : Nat) (x : Source) :
    (s.setSource i x).arbiter = s.arbiter := rfl
@[simp] theorem State.setSource_timebase (s : State) (i : Nat) (x : Source) :
    (s.setSource i x).timebase = s.timebase := rfl
@[simp] theorem State.setSource_dram (s : State) (i : Nat) (x : Source) : (s.setSource i x).dram = s.dram := rfl

/-! ### State.setSlot -/

@[simp] theorem State.setSlot_pending (s : State) (k : Nat) (x : CheckpointSlot) :
    (s.setSlot k x).pending = s.pending := rfl
@[simp] theorem State.setSlot_ring (s : State) (k : Nat) (x : CheckpointSlot) : (s.setSlot k x).ring = s.ring := rfl
@[simp] theorem State.setSlot_ports (s : State) (k : Nat) (x : CheckpointSlot) :
    (s.setSlot k x).ports = s.ports := rfl
@[simp] theorem State.setSlot_dispatcher (s : State) (k : Nat) (x : CheckpointSlot) :
    (s.setSlot k x).dispatcher = s.dispatcher := rfl
@[simp] theorem State.setSlot_readouts (s : State) (k : Nat) (x : CheckpointSlot) :
    (s.setSlot k x).readouts = s.readouts := rfl
@[simp] theorem State.setSlot_sources (s : State) (k : Nat) (x : CheckpointSlot) :
    (s.setSlot k x).sources = s.sources := rfl
@[simp] theorem State.setSlot_batches (s : State) (k : Nat) (x : CheckpointSlot) :
    (s.setSlot k x).batches = s.batches := rfl
@[simp] theorem State.setSlot_merge (s : State) (k : Nat) (x : CheckpointSlot) :
    (s.setSlot k x).merge = s.merge := rfl
@[simp] theorem State.setSlot_journal (s : State) (k : Nat) (x : CheckpointSlot) :
    (s.setSlot k x).journal = s.journal := rfl
@[simp] theorem State.setSlot_catalogue (s : State) (k : Nat) (x : CheckpointSlot) :
    (s.setSlot k x).catalogue = s.catalogue := rfl
@[simp] theorem State.setSlot_directory (s : State) (k : Nat) (x : CheckpointSlot) :
    (s.setSlot k x).directory = { s.directory with slots := Sparse.set {} s.directory.slots k x } := rfl
@[simp] theorem State.setSlot_views (s : State) (k : Nat) (x : CheckpointSlot) :
    (s.setSlot k x).views = s.views := rfl
@[simp] theorem State.setSlot_parked (s : State) (k : Nat) (x : CheckpointSlot) :
    (s.setSlot k x).parked = s.parked := rfl
@[simp] theorem State.setSlot_copies (s : State) (k : Nat) (x : CheckpointSlot) :
    (s.setSlot k x).copies = s.copies := rfl
@[simp] theorem State.setSlot_arbiter (s : State) (k : Nat) (x : CheckpointSlot) :
    (s.setSlot k x).arbiter = s.arbiter := rfl
@[simp] theorem State.setSlot_timebase (s : State) (k : Nat) (x : CheckpointSlot) :
    (s.setSlot k x).timebase = s.timebase := rfl
@[simp] theorem State.setSlot_dram (s : State) (k : Nat) (x : CheckpointSlot) : (s.setSlot k x).dram = s.dram := rfl

/-! ### State.setSlotImage -/

@[simp] theorem State.setSlotImage_pending (s : State) (k : Nat) (img : Image) :
    (s.setSlotImage k img).pending = s.pending := rfl
@[simp] theorem State.setSlotImage_ring (s : State) (k : Nat) (img : Image) :
    (s.setSlotImage k img).ring = s.ring := rfl
@[simp] theorem State.setSlotImage_ports (s : State) (k : Nat) (img : Image) :
    (s.setSlotImage k img).ports = s.ports := rfl
@[simp] theorem State.setSlotImage_dispatcher (s : State) (k : Nat) (img : Image) :
    (s.setSlotImage k img).dispatcher = s.dispatcher := rfl
@[simp] theorem State.setSlotImage_readouts (s : State) (k : Nat) (img : Image) :
    (s.setSlotImage k img).readouts = s.readouts := rfl
@[simp] theorem State.setSlotImage_sources (s : State) (k : Nat) (img : Image) :
    (s.setSlotImage k img).sources = s.sources := rfl
@[simp] theorem State.setSlotImage_batches (s : State) (k : Nat) (img : Image) :
    (s.setSlotImage k img).batches = s.batches := rfl
@[simp] theorem State.setSlotImage_merge (s : State) (k : Nat) (img : Image) :
    (s.setSlotImage k img).merge = s.merge := rfl
@[simp] theorem State.setSlotImage_journal (s : State) (k : Nat) (img : Image) :
    (s.setSlotImage k img).journal = s.journal := rfl
@[simp] theorem State.setSlotImage_catalogue (s : State) (k : Nat) (img : Image) :
    (s.setSlotImage k img).catalogue = s.catalogue := rfl
@[simp] theorem State.setSlotImage_directory (s : State) (k : Nat) (img : Image) :
    (s.setSlotImage k img).directory = s.directory := rfl
@[simp] theorem State.setSlotImage_views (s : State) (k : Nat) (img : Image) :
    (s.setSlotImage k img).views = s.views := rfl
@[simp] theorem State.setSlotImage_parked (s : State) (k : Nat) (img : Image) :
    (s.setSlotImage k img).parked = s.parked := rfl
@[simp] theorem State.setSlotImage_copies (s : State) (k : Nat) (img : Image) :
    (s.setSlotImage k img).copies = s.copies := rfl
@[simp] theorem State.setSlotImage_arbiter (s : State) (k : Nat) (img : Image) :
    (s.setSlotImage k img).arbiter = s.arbiter := rfl
@[simp] theorem State.setSlotImage_timebase (s : State) (k : Nat) (img : Image) :
    (s.setSlotImage k img).timebase = s.timebase := rfl
@[simp] theorem State.setSlotImage_dram (s : State) (k : Nat) (img : Image) :
    (s.setSlotImage k img).dram = { s.dram with slotImages := Sparse.set [] s.dram.slotImages k img } := rfl

/-! ### State.setViewImage -/

@[simp] theorem State.setViewImage_pending (s : State) (v : Slot) (img : Image) :
    (s.setViewImage v img).pending = s.pending := rfl
@[simp] theorem State.setViewImage_ring (s : State) (v : Slot) (img : Image) :
    (s.setViewImage v img).ring = s.ring := rfl
@[simp] theorem State.setViewImage_ports (s : State) (v : Slot) (img : Image) :
    (s.setViewImage v img).ports = s.ports := rfl
@[simp] theorem State.setViewImage_dispatcher (s : State) (v : Slot) (img : Image) :
    (s.setViewImage v img).dispatcher = s.dispatcher := rfl
@[simp] theorem State.setViewImage_readouts (s : State) (v : Slot) (img : Image) :
    (s.setViewImage v img).readouts = s.readouts := rfl
@[simp] theorem State.setViewImage_sources (s : State) (v : Slot) (img : Image) :
    (s.setViewImage v img).sources = s.sources := rfl
@[simp] theorem State.setViewImage_batches (s : State) (v : Slot) (img : Image) :
    (s.setViewImage v img).batches = s.batches := rfl
@[simp] theorem State.setViewImage_merge (s : State) (v : Slot) (img : Image) :
    (s.setViewImage v img).merge = s.merge := rfl
@[simp] theorem State.setViewImage_journal (s : State) (v : Slot) (img : Image) :
    (s.setViewImage v img).journal = s.journal := rfl
@[simp] theorem State.setViewImage_catalogue (s : State) (v : Slot) (img : Image) :
    (s.setViewImage v img).catalogue = s.catalogue := rfl
@[simp] theorem State.setViewImage_directory (s : State) (v : Slot) (img : Image) :
    (s.setViewImage v img).directory = s.directory := rfl
@[simp] theorem State.setViewImage_views (s : State) (v : Slot) (img : Image) :
    (s.setViewImage v img).views = s.views := rfl
@[simp] theorem State.setViewImage_parked (s : State) (v : Slot) (img : Image) :
    (s.setViewImage v img).parked = s.parked := rfl
@[simp] theorem State.setViewImage_copies (s : State) (v : Slot) (img : Image) :
    (s.setViewImage v img).copies = s.copies := rfl
@[simp] theorem State.setViewImage_arbiter (s : State) (v : Slot) (img : Image) :
    (s.setViewImage v img).arbiter = s.arbiter := rfl
@[simp] theorem State.setViewImage_timebase (s : State) (v : Slot) (img : Image) :
    (s.setViewImage v img).timebase = s.timebase := rfl
@[simp] theorem State.setViewImage_dram (s : State) (v : Slot) (img : Image) :
    (s.setViewImage v img).dram = { s.dram with viewImages := s.dram.viewImages.set v img } := rfl

/-! ### State.setParked -/

@[simp] theorem State.setParked_pending (s : State) (i : Nat) (x : Option ViewContext) :
    (s.setParked i x).pending = s.pending := rfl
@[simp] theorem State.setParked_ring (s : State) (i : Nat) (x : Option ViewContext) :
    (s.setParked i x).ring = s.ring := rfl
@[simp] theorem State.setParked_ports (s : State) (i : Nat) (x : Option ViewContext) :
    (s.setParked i x).ports = s.ports := rfl
@[simp] theorem State.setParked_dispatcher (s : State) (i : Nat) (x : Option ViewContext) :
    (s.setParked i x).dispatcher = s.dispatcher := rfl
@[simp] theorem State.setParked_readouts (s : State) (i : Nat) (x : Option ViewContext) :
    (s.setParked i x).readouts = s.readouts := rfl
@[simp] theorem State.setParked_sources (s : State) (i : Nat) (x : Option ViewContext) :
    (s.setParked i x).sources = s.sources := rfl
@[simp] theorem State.setParked_batches (s : State) (i : Nat) (x : Option ViewContext) :
    (s.setParked i x).batches = s.batches := rfl
@[simp] theorem State.setParked_merge (s : State) (i : Nat) (x : Option ViewContext) :
    (s.setParked i x).merge = s.merge := rfl
@[simp] theorem State.setParked_journal (s : State) (i : Nat) (x : Option ViewContext) :
    (s.setParked i x).journal = s.journal := rfl
@[simp] theorem State.setParked_catalogue (s : State) (i : Nat) (x : Option ViewContext) :
    (s.setParked i x).catalogue = s.catalogue := rfl
@[simp] theorem State.setParked_directory (s : State) (i : Nat) (x : Option ViewContext) :
    (s.setParked i x).directory = s.directory := rfl
@[simp] theorem State.setParked_views (s : State) (i : Nat) (x : Option ViewContext) :
    (s.setParked i x).views = s.views := rfl
@[simp] theorem State.setParked_parked (s : State) (i : Nat) (x : Option ViewContext) :
    (s.setParked i x).parked = Sparse.set none s.parked i x := rfl
@[simp] theorem State.setParked_copies (s : State) (i : Nat) (x : Option ViewContext) :
    (s.setParked i x).copies = s.copies := rfl
@[simp] theorem State.setParked_arbiter (s : State) (i : Nat) (x : Option ViewContext) :
    (s.setParked i x).arbiter = s.arbiter := rfl
@[simp] theorem State.setParked_timebase (s : State) (i : Nat) (x : Option ViewContext) :
    (s.setParked i x).timebase = s.timebase := rfl
@[simp] theorem State.setParked_dram (s : State) (i : Nat) (x : Option ViewContext) :
    (s.setParked i x).dram = s.dram := rfl

/-! ### State.partWrite -/

@[simp] theorem State.partWrite_pending (s : State) (a : Nat) (bs : List Byte) :
    (s.partWrite a bs).pending = s.pending := rfl
@[simp] theorem State.partWrite_ring_up (s : State) (a : Nat) (bs : List Byte) : (s.partWrite a bs).ring.up = s.ring.up := rfl
@[simp] theorem State.partWrite_ring_node (s : State) (a : Nat) (bs : List Byte) : (s.partWrite a bs).ring.node = s.ring.node := rfl
@[simp] theorem State.partWrite_ring_size (s : State) (a : Nat) (bs : List Byte) : (s.partWrite a bs).ring.size = s.ring.size := rfl
@[simp] theorem State.partWrite_ring_signal (s : State) (a : Nat) (bs : List Byte) : (s.partWrite a bs).ring.signal = s.ring.signal := rfl
@[simp] theorem State.partWrite_ring_syncWaiting (s : State) (a : Nat) (bs : List Byte) : (s.partWrite a bs).ring.syncWaiting = s.ring.syncWaiting := rfl
@[simp] theorem State.partWrite_ring_forward (s : State) (a : Nat) (bs : List Byte) : (s.partWrite a bs).ring.forward = s.ring.forward := rfl
@[simp] theorem State.partWrite_ring_lastOwn (s : State) (a : Nat) (bs : List Byte) : (s.partWrite a bs).ring.lastOwn = s.ring.lastOwn := rfl
@[simp] theorem State.partWrite_ring_sent (s : State) (a : Nat) (bs : List Byte) : (s.partWrite a bs).ring.sent = s.ring.sent := rfl
@[simp] theorem State.partWrite_ring_attachQueue (s : State) (a : Nat) (bs : List Byte) : (s.partWrite a bs).ring.attachQueue = s.ring.attachQueue := rfl
@[simp] theorem State.partWrite_ring_detachQueue (s : State) (a : Nat) (bs : List Byte) : (s.partWrite a bs).ring.detachQueue = s.ring.detachQueue := rfl
@[simp] theorem State.partWrite_ring_kickQueue (s : State) (a : Nat) (bs : List Byte) : (s.partWrite a bs).ring.kickQueue = s.ring.kickQueue := rfl
@[simp] theorem State.partWrite_ring_rearmQueue (s : State) (a : Nat) (bs : List Byte) : (s.partWrite a bs).ring.rearmQueue = s.ring.rearmQueue := rfl
@[simp] theorem State.partWrite_ring_lossFlags (s : State) (a : Nat) (bs : List Byte) : (s.partWrite a bs).ring.lossFlags = s.ring.lossFlags := rfl
@[simp] theorem State.partWrite_ring_lastRefused (s : State) (a : Nat) (bs : List Byte) : (s.partWrite a bs).ring.lastRefused = s.ring.lastRefused := rfl
@[simp] theorem State.partWrite_replica (s : State) (a : Nat) (bs : List Byte) :
    (s.partWrite a bs).ring.replica = replicaWrite s.ring.replica a bs := rfl
@[simp] theorem State.partWrite_ports (s : State) (a : Nat) (bs : List Byte) :
    (s.partWrite a bs).ports = s.ports := rfl
@[simp] theorem State.partWrite_dispatcher (s : State) (a : Nat) (bs : List Byte) :
    (s.partWrite a bs).dispatcher = s.dispatcher := rfl
@[simp] theorem State.partWrite_readouts (s : State) (a : Nat) (bs : List Byte) :
    (s.partWrite a bs).readouts = s.readouts := rfl
@[simp] theorem State.partWrite_sources (s : State) (a : Nat) (bs : List Byte) :
    (s.partWrite a bs).sources = s.sources := rfl
@[simp] theorem State.partWrite_batches (s : State) (a : Nat) (bs : List Byte) :
    (s.partWrite a bs).batches = s.batches := rfl
@[simp] theorem State.partWrite_merge (s : State) (a : Nat) (bs : List Byte) :
    (s.partWrite a bs).merge = s.merge := rfl
@[simp] theorem State.partWrite_journal (s : State) (a : Nat) (bs : List Byte) :
    (s.partWrite a bs).journal = s.journal := rfl
@[simp] theorem State.partWrite_catalogue (s : State) (a : Nat) (bs : List Byte) :
    (s.partWrite a bs).catalogue = s.catalogue := rfl
@[simp] theorem State.partWrite_directory (s : State) (a : Nat) (bs : List Byte) :
    (s.partWrite a bs).directory = s.directory := rfl
@[simp] theorem State.partWrite_views (s : State) (a : Nat) (bs : List Byte) :
    (s.partWrite a bs).views = s.views := rfl
@[simp] theorem State.partWrite_parked (s : State) (a : Nat) (bs : List Byte) :
    (s.partWrite a bs).parked = s.parked := rfl
@[simp] theorem State.partWrite_copies (s : State) (a : Nat) (bs : List Byte) :
    (s.partWrite a bs).copies = s.copies := rfl
@[simp] theorem State.partWrite_arbiter (s : State) (a : Nat) (bs : List Byte) :
    (s.partWrite a bs).arbiter = s.arbiter := rfl
@[simp] theorem State.partWrite_timebase (s : State) (a : Nat) (bs : List Byte) :
    (s.partWrite a bs).timebase = s.timebase := rfl
@[simp] theorem State.partWrite_dram (s : State) (a : Nat) (bs : List Byte) : (s.partWrite a bs).dram = s.dram := rfl

/-! ### State.submit -/

@[simp] theorem State.submit_pending (s : State) (w : Requester) (rs : List Request) :
    (s.submit w rs).pending = s.pending := rfl
@[simp] theorem State.submit_ring (s : State) (w : Requester) (rs : List Request) :
    (s.submit w rs).ring = s.ring := rfl
@[simp] theorem State.submit_ports (s : State) (w : Requester) (rs : List Request) :
    (s.submit w rs).ports = s.ports := rfl
@[simp] theorem State.submit_dispatcher (s : State) (w : Requester) (rs : List Request) :
    (s.submit w rs).dispatcher = s.dispatcher := rfl
@[simp] theorem State.submit_readouts (s : State) (w : Requester) (rs : List Request) :
    (s.submit w rs).readouts = s.readouts := rfl
@[simp] theorem State.submit_sources (s : State) (w : Requester) (rs : List Request) :
    (s.submit w rs).sources = s.sources := rfl
@[simp] theorem State.submit_batches (s : State) (w : Requester) (rs : List Request) :
    (s.submit w rs).batches = s.batches := rfl
@[simp] theorem State.submit_merge (s : State) (w : Requester) (rs : List Request) :
    (s.submit w rs).merge = s.merge := rfl
@[simp] theorem State.submit_journal (s : State) (w : Requester) (rs : List Request) :
    (s.submit w rs).journal = s.journal := rfl
@[simp] theorem State.submit_catalogue (s : State) (w : Requester) (rs : List Request) :
    (s.submit w rs).catalogue = s.catalogue := rfl
@[simp] theorem State.submit_directory (s : State) (w : Requester) (rs : List Request) :
    (s.submit w rs).directory = s.directory := rfl
@[simp] theorem State.submit_views (s : State) (w : Requester) (rs : List Request) :
    (s.submit w rs).views = s.views := rfl
@[simp] theorem State.submit_parked (s : State) (w : Requester) (rs : List Request) :
    (s.submit w rs).parked = s.parked := rfl
@[simp] theorem State.submit_copies (s : State) (w : Requester) (rs : List Request) :
    (s.submit w rs).copies = s.copies := rfl
@[simp] theorem State.submit_arbiter (s : State) (w : Requester) (rs : List Request) :
    (s.submit w rs).arbiter = s.arbiter.submit w rs := rfl
@[simp] theorem State.submit_timebase (s : State) (w : Requester) (rs : List Request) :
    (s.submit w rs).timebase = s.timebase := rfl
@[simp] theorem State.submit_dram (s : State) (w : Requester) (rs : List Request) :
    (s.submit w rs).dram = s.dram := rfl

/-! ### State.finishTransfer -/

@[simp] theorem State.finishTransfer_pending (s : State) : s.finishTransfer.pending = s.pending := rfl
@[simp] theorem State.finishTransfer_ring (s : State) : s.finishTransfer.ring = s.ring := rfl
@[simp] theorem State.finishTransfer_ports (s : State) : s.finishTransfer.ports = s.ports := rfl
@[simp] theorem State.finishTransfer_dispatcher (s : State) : s.finishTransfer.dispatcher = s.dispatcher := rfl
@[simp] theorem State.finishTransfer_readouts (s : State) : s.finishTransfer.readouts = s.readouts := rfl
@[simp] theorem State.finishTransfer_sources (s : State) : s.finishTransfer.sources = s.sources := rfl
@[simp] theorem State.finishTransfer_batches (s : State) : s.finishTransfer.batches = s.batches := rfl
@[simp] theorem State.finishTransfer_merge (s : State) : s.finishTransfer.merge = s.merge := rfl
@[simp] theorem State.finishTransfer_journal (s : State) : s.finishTransfer.journal = s.journal := rfl
@[simp] theorem State.finishTransfer_catalogue (s : State) : s.finishTransfer.catalogue = s.catalogue := rfl
@[simp] theorem State.finishTransfer_directory (s : State) : s.finishTransfer.directory = s.directory := rfl
@[simp] theorem State.finishTransfer_views (s : State) : s.finishTransfer.views = s.views := rfl
@[simp] theorem State.finishTransfer_parked (s : State) : s.finishTransfer.parked = s.parked := rfl
@[simp] theorem State.finishTransfer_copies (s : State) : s.finishTransfer.copies = s.copies := rfl
@[simp] theorem State.finishTransfer_arbiter (s : State) : s.finishTransfer.arbiter = s.arbiter.finish := rfl
@[simp] theorem State.finishTransfer_timebase (s : State) : s.finishTransfer.timebase = s.timebase := rfl
@[simp] theorem State.finishTransfer_dram (s : State) : s.finishTransfer.dram = s.dram := rfl

/-! ### State.sendNotice -/

@[simp] theorem State.sendNotice_pending (s : State) (n : Node) (k : NoticeType) (x : BitVec 32) :
    (s.sendNotice n k x).pending = s.pending := by unfold State.sendNotice; split <;> rfl
@[simp] theorem State.sendNotice_ring_up (s : State) (n : Node) (k : NoticeType) (x : BitVec 32) :
    (s.sendNotice n k x).ring.up = s.ring.up := by unfold State.sendNotice; split <;> rfl
@[simp] theorem State.sendNotice_ring_node (s : State) (n : Node) (k : NoticeType) (x : BitVec 32) :
    (s.sendNotice n k x).ring.node = s.ring.node := by unfold State.sendNotice; split <;> rfl
@[simp] theorem State.sendNotice_ring_size (s : State) (n : Node) (k : NoticeType) (x : BitVec 32) :
    (s.sendNotice n k x).ring.size = s.ring.size := by unfold State.sendNotice; split <;> rfl
@[simp] theorem State.sendNotice_ring_signal (s : State) (n : Node) (k : NoticeType) (x : BitVec 32) :
    (s.sendNotice n k x).ring.signal = s.ring.signal := by unfold State.sendNotice; split <;> rfl
@[simp] theorem State.sendNotice_ring_syncWaiting (s : State) (n : Node) (k : NoticeType) (x : BitVec 32) :
    (s.sendNotice n k x).ring.syncWaiting = s.ring.syncWaiting := by unfold State.sendNotice; split <;> rfl
@[simp] theorem State.sendNotice_ring_replica (s : State) (n : Node) (k : NoticeType) (x : BitVec 32) :
    (s.sendNotice n k x).ring.replica = s.ring.replica := by unfold State.sendNotice; split <;> rfl
@[simp] theorem State.sendNotice_ring_forward (s : State) (n : Node) (k : NoticeType) (x : BitVec 32) :
    (s.sendNotice n k x).ring.forward = s.ring.forward := by unfold State.sendNotice; split <;> rfl
@[simp] theorem State.sendNotice_ring_lastOwn (s : State) (n : Node) (k : NoticeType) (x : BitVec 32) :
    (s.sendNotice n k x).ring.lastOwn = s.ring.lastOwn := by unfold State.sendNotice; split <;> rfl
@[simp] theorem State.sendNotice_ring_sent (s : State) (n : Node) (k : NoticeType) (x : BitVec 32) :
    (s.sendNotice n k x).ring.sent = s.ring.sent := by unfold State.sendNotice; split <;> rfl
@[simp] theorem State.sendNotice_ring_attachQueue (s : State) (n : Node) (k : NoticeType) (x : BitVec 32) :
    (s.sendNotice n k x).ring.attachQueue = s.ring.attachQueue := by unfold State.sendNotice; split <;> rfl
@[simp] theorem State.sendNotice_ring_detachQueue (s : State) (n : Node) (k : NoticeType) (x : BitVec 32) :
    (s.sendNotice n k x).ring.detachQueue = s.ring.detachQueue := by unfold State.sendNotice; split <;> rfl
@[simp] theorem State.sendNotice_ring_kickQueue (s : State) (n : Node) (k : NoticeType) (x : BitVec 32) :
    (s.sendNotice n k x).ring.kickQueue = s.ring.kickQueue := by unfold State.sendNotice; split <;> rfl
@[simp] theorem State.sendNotice_ring_rearmQueue (s : State) (n : Node) (k : NoticeType) (x : BitVec 32) :
    (s.sendNotice n k x).ring.rearmQueue = s.ring.rearmQueue := by unfold State.sendNotice; split <;> rfl
@[simp] theorem State.sendNotice_ring_lossFlags (s : State) (n : Node) (k : NoticeType) (x : BitVec 32) :
    (s.sendNotice n k x).ring.lossFlags = s.ring.lossFlags := by unfold State.sendNotice; split <;> rfl
@[simp] theorem State.sendNotice_ring_lastRefused (s : State) (n : Node) (k : NoticeType) (x : BitVec 32) :
    (s.sendNotice n k x).ring.lastRefused = s.ring.lastRefused := by unfold State.sendNotice; split <;> rfl
@[simp] theorem State.sendNotice_ports (s : State) (n : Node) (k : NoticeType) (x : BitVec 32) :
    (s.sendNotice n k x).ports = s.ports := by unfold State.sendNotice; split <;> rfl
@[simp] theorem State.sendNotice_dispatcher (s : State) (n : Node) (k : NoticeType) (x : BitVec 32) :
    (s.sendNotice n k x).dispatcher = s.dispatcher := by unfold State.sendNotice; split <;> rfl
@[simp] theorem State.sendNotice_readouts (s : State) (n : Node) (k : NoticeType) (x : BitVec 32) :
    (s.sendNotice n k x).readouts = s.readouts := by unfold State.sendNotice; split <;> rfl
@[simp] theorem State.sendNotice_sources (s : State) (n : Node) (k : NoticeType) (x : BitVec 32) :
    (s.sendNotice n k x).sources = s.sources := by unfold State.sendNotice; split <;> rfl
@[simp] theorem State.sendNotice_batches (s : State) (n : Node) (k : NoticeType) (x : BitVec 32) :
    (s.sendNotice n k x).batches = s.batches := by unfold State.sendNotice; split <;> rfl
@[simp] theorem State.sendNotice_merge (s : State) (n : Node) (k : NoticeType) (x : BitVec 32) :
    (s.sendNotice n k x).merge = s.merge := by unfold State.sendNotice; split <;> rfl
@[simp] theorem State.sendNotice_journal (s : State) (n : Node) (k : NoticeType) (x : BitVec 32) :
    (s.sendNotice n k x).journal = s.journal := by unfold State.sendNotice; split <;> rfl
@[simp] theorem State.sendNotice_catalogue (s : State) (n : Node) (k : NoticeType) (x : BitVec 32) :
    (s.sendNotice n k x).catalogue = s.catalogue := by unfold State.sendNotice; split <;> rfl
@[simp] theorem State.sendNotice_directory (s : State) (n : Node) (k : NoticeType) (x : BitVec 32) :
    (s.sendNotice n k x).directory = s.directory := by unfold State.sendNotice; split <;> rfl
@[simp] theorem State.sendNotice_views (s : State) (n : Node) (k : NoticeType) (x : BitVec 32) :
    (s.sendNotice n k x).views = s.views := by unfold State.sendNotice; split <;> rfl
@[simp] theorem State.sendNotice_parked (s : State) (n : Node) (k : NoticeType) (x : BitVec 32) :
    (s.sendNotice n k x).parked = s.parked := by unfold State.sendNotice; split <;> rfl
@[simp] theorem State.sendNotice_copies (s : State) (n : Node) (k : NoticeType) (x : BitVec 32) :
    (s.sendNotice n k x).copies = s.copies := by unfold State.sendNotice; split <;> rfl
@[simp] theorem State.sendNotice_arbiter (s : State) (n : Node) (k : NoticeType) (x : BitVec 32) :
    (s.sendNotice n k x).arbiter = s.arbiter := by unfold State.sendNotice; split <;> rfl
@[simp] theorem State.sendNotice_timebase (s : State) (n : Node) (k : NoticeType) (x : BitVec 32) :
    (s.sendNotice n k x).timebase = s.timebase := by unfold State.sendNotice; split <;> rfl
@[simp] theorem State.sendNotice_dram (s : State) (n : Node) (k : NoticeType) (x : BitVec 32) :
    (s.sendNotice n k x).dram = s.dram := by unfold State.sendNotice; split <;> rfl

/-! ### Reading a table after an update -/

theorem State.setPort_get (s : State) (p q : PortId) (x : Port) :
    (s.setPort p x).ports[q] = if q = p then x else s.ports[q] := by
  by_cases h : q = p
  · subst h; simp
  · have hv : p.val ≠ q.val := fun e => h (Fin.ext e.symm)
    simp only [State.setPort_ports, Fin.getElem_fin, if_neg h]
    exact Vector.getElem_set_ne p.isLt q.isLt hv

@[simp] theorem State.setPort_get_self (s : State) (p : PortId) (x : Port) : (s.setPort p x).ports[p] = x := by
  rw [State.setPort_get, if_pos rfl]

theorem State.setView_get (s : State) (v u : Slot) (x : View) :
    (s.setView v x).views[u] = if u = v then x else s.views[u] := by
  by_cases h : u = v
  · subst h; simp
  · have hv : v.val ≠ u.val := fun e => h (Fin.ext e.symm)
    simp only [State.setView_views, Fin.getElem_fin, if_neg h]
    exact Vector.getElem_set_ne v.isLt u.isLt hv

@[simp] theorem State.setView_get_self (s : State) (v : Slot) (x : View) : (s.setView v x).views[v] = x := by
  rw [State.setView_get, if_pos rfl]

theorem State.setPort_same (s : State) (p : PortId) : s.setPort p s.ports[p] = s := by
  obtain ⟨⟩ := s
  simp [State.setPort]

theorem State.setView_same (s : State) (v : Slot) : s.setView v s.views[v] = s := by
  obtain ⟨⟩ := s
  simp [State.setView]

end Sys2Proof.Machine
end

