-- ==== Sys2Proof/Laws/Ops.lean ====
section
/-! SUPPORT. What the shared operations can do: the part's writes, a port's records, and the end of a command. -/

namespace Sys2Proof.Machine

/-! ### Lengths of records -/

@[simp] theorem leBytes_length (len n : Nat) : (leBytes len n).length = len := by
  induction len generalizing n with
  | zero => rfl
  | succ k ih => simp [leBytes, ih]

@[simp] theorem zeros_length (len : Nat) : (zeros len).length = len := by simp [zeros]

theorem padTo_length (len : Nat) (bs : List Byte) (h : bs.length ≤ len) : (padTo len bs).length = len := by
  simp [padTo]; omega

@[simp] theorem completionBytes_length (d : Descriptor) (r : Result) (v1 v2 v3 : Nat) :
    (completionBytes d r v1 v2 v3).length = 32 := by simp [completionBytes]

@[simp] theorem portStatusBytes_length (s : State) (p : PortId) : (portStatusBytes s p).length = 24 := by
  unfold portStatusBytes
  exact padTo_length _ _ (by simp)

@[simp] theorem sourceBytes_length (x : Source) : (sourceBytes x).length = 96 := by
  unfold sourceBytes
  exact padTo_length _ _ (by simp [paramBytes])

@[simp] theorem viewStatusBytes_length (w : View) : (viewStatusBytes w).length = 64 := by
  unfold viewStatusBytes
  split <;> exact padTo_length _ _ (by simp)

@[simp] theorem counterBytes_length (w : View) : (counterBytes w).length = 8 := by simp [counterBytes]

/-! ### The part's writes (R153) -/

/-- What a write by the part changes. -/
theorem partWrite_eq (s : State) (a : Nat) (bs : List Byte) :
    s.partWrite a bs = { s with ring := { s.ring with
      replica := (s.partWrite a bs).ring.replica, own := (s.partWrite a bs).ring.own } } := rfl

/-- A byte outside a write by the part is unchanged. -/
theorem partWrite_byteAt (s : State) (a x : Nat) (bs : List Byte) (h : ¬ InBytes x a bs.length) :
    (s.partWrite a bs).byteAt x = s.byteAt x := Sparse.get_setRange_outside _ _ _ _ _ h

/-- A write by the part stands in the local replica at once. -/
theorem partWrite_stands (s : State) (a : Nat) (bs : List Byte) : Stands (s.partWrite a bs) a bs :=
  Sparse.read_setRange_self _ _ _ _

/-- What stands in the local replica outside a write by the part stands on. -/
theorem partWrite_keeps_stands (s : State) (a b : Nat) (bs cs : List Byte)
    (h : b + cs.length ≤ a ∨ a + bs.length ≤ b) (hs : Stands s b cs) : Stands (s.partWrite a bs) b cs := by
  unfold Stands State.bytesAt at hs ⊢
  rw [← hs]
  rw [Sparse.read_length]
  exact Sparse.read_setRange_disjoint _ _ _ _ _ _ (by simpa using h)

/-- Bytes that no write of a step touches stand on. -/
theorem stands_of_byteAt (s t : State) (a : Nat) (bs : List Byte)
    (h : ∀ x, InBytes x a bs.length → t.byteAt x = s.byteAt x) (hs : Stands s a bs) : Stands t a bs := by
  unfold Stands at hs ⊢
  refine Eq.trans ?_ hs
  apply List.ext_getElem (by simp [State.bytesAt])
  intro i h1 h2
  have hi : i < bs.length := by simpa [State.bytesAt] using h1
  have e := h (a + i) ⟨by omega, by omega⟩
  exact (Sparse.read_getElem _ _ _ _ _ hi).trans (e.trans (Sparse.read_getElem _ _ _ _ _ hi).symm)

/-- What a notice changes: the packets held for sending. -/
theorem sendNotice_eq (s : State) (n : Node) (k : NoticeType) (x : BitVec 32) :
    s.sendNotice n k x = { s with ring := { s.ring with own := (s.sendNotice n k x).ring.own } } := by
  unfold State.sendNotice
  split <;> rfl

@[simp] theorem sendNotice_byteAt (s : State) (n : Node) (k : NoticeType) (x : BitVec 32) (a : Nat) :
    (s.sendNotice n k x).byteAt a = s.byteAt a := by
  unfold State.byteAt; rw [State.sendNotice_ring_replica]

@[simp] theorem setPort_byteAt (s : State) (p : PortId) (x : Port) (a : Nat) :
    (s.setPort p x).byteAt a = s.byteAt a := rfl

@[simp] theorem setView_byteAt (s : State) (v : Slot) (x : View) (a : Nat) :
    (s.setView v x).byteAt a = s.byteAt a := rfl

/-- The port status record is the one place a rewrite of it touches. -/
theorem writePortStatus_byteAt (s : State) (p : PortId) (x : Nat) (h : ¬ InBytes x (Config.portStatusAddr p) 24) :
    (s.writePortStatus p).byteAt x = s.byteAt x := partWrite_byteAt _ _ _ _ (by simpa using h)

/-- A word of the part status page is the one place a rewrite of it touches. -/
theorem writePartStatus_byteAt (s : State) (off len x : Nat)
    (h : ¬ InBytes x (Config.partStatusAddr + off) len) : (s.writePartStatus off len).byteAt x = s.byteAt x := by
  refine partWrite_byteAt _ _ _ _ ?_
  have hl : (((partStatusBytes s).drop off).take len).length ≤ len := by simp
  unfold InBytes at h ⊢
  omega

/-! ### The words of the part status page (R159) -/

@[simp] theorem partStatusBytes_partWrite (s : State) (a : Nat) (bs : List Byte) :
    partStatusBytes (s.partWrite a bs) = partStatusBytes s := rfl

/-- A rewrite of part of the page shows its fields as they are. -/
theorem writePartStatus_shows (s : State) (off len : Nat) : PageShows (s.writePartStatus off len) off len :=
  partWrite_stands s _ _

theorem writeRingWord_shown (s : State) : RingWordShown s.writeRingWord := writePartStatus_shows s 0 8
theorem writeCountsWord_shown (s : State) : CountsShown s.writeCountsWord := writePartStatus_shows s 8 8
theorem writeDirectoryWord_shown (s : State) : DirectoryShown s.writeDirectoryWord := writePartStatus_shows s 16 8
theorem writeSettledWords_shown (s : State) : SettledShown s.writeSettledWords := writePartStatus_shows s 24 16

@[simp] theorem settledBytes_length (k : Option Key) : (settledBytes k).length = 16 := by
  cases k <;> simp [settledBytes]

@[simp] theorem bindingBytes_length (x : Port) : (bindingBytes x).length = 8 := by
  unfold bindingBytes
  split <;> simp

/-- Eight-byte entries of a table: what stands from entry `i` on. -/
theorem drop_flatMap_eight (f : Port → List Byte) (hf : ∀ x, (f x).length = 8) (xs : List Port) (i : Nat) :
    (xs.flatMap f).drop (8 * i) = (xs.drop i).flatMap f := by
  induction xs generalizing i with
  | nil => simp
  | cons x xs ih =>
    cases i with
    | zero => simp
    | succ i =>
      rw [List.flatMap_cons, List.drop_append, hf, List.drop_eq_nil_of_le (by rw [hf]; omega), List.nil_append,
        show 8 * (i + 1) - 8 = 8 * i by omega, ih, List.drop_succ_cons]

/-- Port `p`'s entry of the binding table stands at bytes 64 + 8p of the page. -/
theorem partStatusBytes_binding (s : State) (p : PortId) :
    ((partStatusBytes s).drop (64 + 8 * p.val)).take 8 = bindingBytes s.ports[p] := by
  have hd : (partStatusBytes s).drop 64 = s.ports.toList.flatMap bindingBytes := by
    unfold partStatusBytes
    exact List.drop_left' (by simp)
  have hp : p.val < s.ports.toList.length := by simp
  rw [← List.drop_drop, hd, drop_flatMap_eight bindingBytes bindingBytes_length, List.drop_eq_getElem_cons hp,
    List.flatMap_cons, List.take_left' (bindingBytes_length _)]
  simp

theorem writeBinding_shown (s : State) (p : PortId) : BindingShown (s.writeBinding p) p := by
  have h := writePartStatus_shows s (64 + 8 * p.val) 8
  unfold PageShows at h
  rw [partStatusBytes_binding, ← Nat.add_assoc] at h
  exact h

/-! ### What a port's records reach -/

/-- `t` is `s` but for port `p`'s context, the local replica and the packets held for sending. -/
def AtPort (s t : State) (p : PortId) : Prop :=
  t = { s with ring := { s.ring with replica := t.ring.replica, own := t.ring.own }, ports := t.ports } ∧
  (∀ q : PortId, q ≠ p → t.ports[q] = s.ports[q])

theorem AtPort.refl (s : State) (p : PortId) : AtPort s s p := ⟨rfl, fun _ _ => rfl⟩

theorem AtPort.trans {s t u : State} {p : PortId} (h : AtPort s t p) (k : AtPort t u p) : AtPort s u p := by
  refine ⟨?_, fun q hq => (k.2 q hq).trans (h.2 q hq)⟩
  rw [k.1, h.1]

theorem atPort_partWrite (s : State) (p : PortId) (a : Nat) (bs : List Byte) : AtPort s (s.partWrite a bs) p :=
  ⟨rfl, fun _ _ => rfl⟩

theorem atPort_setPort (s : State) (p : PortId) (x : Port) : AtPort s (s.setPort p x) p :=
  ⟨rfl, fun q hq => by rw [State.setPort_get, if_neg hq]⟩

theorem atPort_sendNotice (s : State) (p : PortId) (n : Node) (k : NoticeType) (x : BitVec 32) :
    AtPort s (s.sendNotice n k x) p :=
  ⟨by unfold State.sendNotice; split <;> rfl, fun q _ => by rw [State.sendNotice_ports]⟩

/-- What the taking effect of a pending depth changes (R135). -/
theorem applyPendingDepth_spec (s : State) (p : PortId) :
    AtPort s (applyPendingDepth s p) p ∧
    (applyPendingDepth s p).ports[p] = { s.ports[p] with
      depth := (applyPendingDepth s p).ports[p].depth, pendingDepth := (applyPendingDepth s p).ports[p].pendingDepth } ∧
    (∀ x, ¬ InBytes x (Config.portStatusAddr p) 24 → ¬ InBytes x (Config.partStatusAddr + 64 + 8 * p.val) 8 →
      (applyPendingDepth s p).byteAt x = s.byteAt x) := by
  unfold applyPendingDepth
  split
  · split
    · refine ⟨((atPort_setPort s p _).trans (atPort_partWrite _ p _ _)).trans (atPort_partWrite _ p _ _), ?_, ?_⟩
      · simp [State.writeBinding, State.writePartStatus, State.writePortStatus]
      · intro x h1 h2
        rw [State.writeBinding, writePartStatus_byteAt _ _ _ _ (by rwa [← Nat.add_assoc]),
          writePortStatus_byteAt _ _ _ h1, setPort_byteAt]
    · exact ⟨AtPort.refl s p, rfl, fun _ _ _ => rfl⟩
  · exact ⟨AtPort.refl s p, rfl, fun _ _ _ => rfl⟩

/-! ### The end of a command (R148) -/

/-- The completion ring, the port status records and the binding table do not overlap. -/
theorem completionEntry_apart (p : PortId) (i : Nat) (hi : i < 256) (x : Nat)
    (hx : InBytes x (Config.completionEntry p i) 32) :
    ¬ InBytes x (Config.portStatusAddr p) 24 ∧ ¬ InBytes x (Config.partStatusAddr + 64 + 8 * p.val) 8 := by
  have hp := p.isLt
  unfold InBytes Config.completionEntry Config.portStatusAddr Config.partStatusAddr Config.portBase at *
  omega

theorem notifyEnd_spec (s : State) (p : PortId) (b : Option Node) (d : Descriptor) (i : Index) :
    AtPort s (notifyEnd s b d i) p ∧ (notifyEnd s b d i).ports[p] = s.ports[p] ∧
      ∀ x, (notifyEnd s b d i).byteAt x = s.byteAt x := by
  unfold notifyEnd
  split
  · split
    · exact ⟨atPort_sendNotice _ _ _ _ _, by simp, fun x => sendNotice_byteAt _ _ _ _ _⟩
    · exact ⟨AtPort.refl _ _, rfl, fun _ => rfl⟩
  · exact ⟨AtPort.refl _ _, rfl, fun _ => rfl⟩

/-- What the writing of a completion does (R148). -/
theorem writeCompletion_spec (s : State) (n : Nat) (p : PortId) (d : Descriptor) (r : Result) (v1 v2 v3 : Nat) :
    AtPort s (writeCompletion s n p d r v1 v2 v3) p ∧
    (writeCompletion s n p d r v1 v2 v3).ports[p] =
      { s.ports[p].released n with produced := s.ports[p].produced + 1 } ∧
    Stands (writeCompletion s n p d r v1 v2 v3)
      (Config.completionEntry p (s.ports[p].produced.toNat % Config.ringEntries)) (completionBytes d r v1 v2 v3) ∧
    (∀ x, ¬ InBytes x (Config.completionEntry p (s.ports[p].produced.toNat % Config.ringEntries)) 32 →
      ¬ InBytes x (Config.portStatusAddr p) 24 → (writeCompletion s n p d r v1 v2 v3).byteAt x = s.byteAt x) := by
  obtain ⟨b1, b2, b3⟩ := notifyEnd_spec (((s.partWrite (Config.completionEntry p
    (s.ports[p].produced.toNat % Config.ringEntries)) (completionBytes d r v1 v2 v3)).setPort p
    { s.ports[p].released n with produced := s.ports[p].produced + 1 }).writePortStatus p) p s.ports[p].bound d
    s.ports[p].produced
  refine ⟨(((atPort_partWrite s p _ _).trans (atPort_setPort _ p _)).trans (atPort_partWrite _ p _ _)).trans b1,
    b2.trans (by simp [State.writePortStatus]), ?_, ?_⟩
  · refine stands_of_byteAt _ _ _ _ ?_ (partWrite_stands s _ _)
    intro x hx
    have ha := completionEntry_apart p (s.ports[p].produced.toNat % Config.ringEntries)
          (Nat.mod_lt _ (by decide)) x (by simpa using hx)
    exact (b3 x).trans ((writePortStatus_byteAt _ _ _ ha.1).trans (setPort_byteAt _ _ _ _))
  · intro x h1 h2
    exact (b3 x).trans ((writePortStatus_byteAt _ _ _ h2).trans ((setPort_byteAt _ _ _ _).trans
      (partWrite_byteAt _ _ _ _ (by simpa using h1))))

/-- Everything the end of a command does, once: it ends, and nothing else changes. -/
theorem complete_spec (s : State) (n : Nat) (r : Result) (v1 v2 v3 : Nat) (p : PortId) (c : InFlight)
    (h : findCommand s n = some (p, c)) :
    Ends s (complete s n r v1 v2 v3) n p c.descriptor r v1 v2 v3 ∧ OnlyEnds s (complete s n r v1 v2 v3) p := by
  unfold complete
  rw [h]
  by_cases hr : reports s p = true
  · simp only [hr, if_true]
    obtain ⟨w1, w2, w3, w4⟩ := writeCompletion_spec s n p c.descriptor r v1 v2 v3
    obtain ⟨d1, d2, d3⟩ := applyPendingDepth_spec (writeCompletion s n p c.descriptor r v1 v2 v3) p
    rw [w2] at d2
    refine ⟨⟨by rw [d2]; rfl, ?_⟩, (w1.trans d1).1, (w1.trans d1).2, by rw [d2]; rfl, ?_⟩
    · rw [if_pos hr]
      refine ⟨by rw [d2], stands_of_byteAt _ _ _ _ ?_ w3⟩
      intro x hx
      have ha := completionEntry_apart p (s.ports[p].produced.toNat % Config.ringEntries)
          (Nat.mod_lt _ (by decide)) x (by simpa using hx)
      exact d3 x ha.1 ha.2
    · intro x hx
      unfold reportByte at hx
      push Not at hx
      rw [d3 x hx.2.1 hx.2.2, w4 x hx.1 hx.2.1]
  · simp only [hr, Bool.false_eq_true, if_false]
    have a := (atPort_setPort s p (s.ports[p].released n)).trans (atPort_partWrite _ p (Config.portStatusAddr p)
      (portStatusBytes (s.setPort p (s.ports[p].released n)) p))
    obtain ⟨d1, d2, d3⟩ := applyPendingDepth_spec ((s.setPort p (s.ports[p].released n)).writePortStatus p) p
    have h0 : ((s.setPort p (s.ports[p].released n)).writePortStatus p).ports[p] = s.ports[p].released n := by
      simp [State.writePortStatus]
    rw [h0] at d2
    refine ⟨⟨by rw [d2]; rfl, ?_⟩, (a.trans d1).1, (a.trans d1).2, by rw [d2]; rfl, ?_⟩
    · rw [if_neg hr, d2]; rfl
    · intro x hx
      unfold reportByte at hx
      push Not at hx
      rw [d3 x hx.2.1 hx.2.2, writePortStatus_byteAt _ _ _ hx.2.1, setPort_byteAt]

/-! ### Slots and pins (R64, R65, R70) -/

theorem State.setSlot_slot (s : State) (k j : Nat) (x : CheckpointSlot) :
    (s.setSlot k x).slot j = if j = k then x else s.slot j := Sparse.get_set _ _ _ _ _

theorem unpin_slot (s : State) (k j : Nat) :
    (unpin s k).slot j = if j = k then { s.slot k with pins := (s.slot k).pins - 1 } else s.slot j :=
  State.setSlot_slot _ _ _ _

/-- No slot can be taken: each FREE slot is pinned. -/
theorem lowestFreeSlot_eq_none (s : State) :
    lowestFreeSlot s = none ↔ ∀ k < 1024, ¬ ((s.slot k).state = .free ∧ (s.slot k).pins = 0) := by
  unfold lowestFreeSlot
  rw [List.find?_eq_none]
  simp [Config.checkpointSlots]

/-- The slot taken is the lowest that is FREE and without a pin (R64). -/
theorem lowestFreeSlot_eq_some (s : State) (k : Nat) :
    lowestFreeSlot s = some k ↔ k < 1024 ∧ ((s.slot k).state = .free ∧ (s.slot k).pins = 0) ∧
      ∀ j < k, ¬ ((s.slot j).state = .free ∧ (s.slot j).pins = 0) := by
  unfold lowestFreeSlot
  rw [List.find?_range_eq_some]
  simp only [decide_eq_true_eq, Bool.not_eq_true', decide_eq_false_iff_not, List.mem_range]
  exact ⟨fun h => ⟨h.2.1, h.1, h.2.2⟩, fun h => ⟨h.2.1, h.1, h.2.2⟩⟩

/-- A waiting write takes the slot that loses its last pin (R65). -/
theorem releasePin_takes (s : State) (q k : Nat) (due : s.directory.due = some q) (write : s.directory.write = none)
    (waits : lowestFreeSlot s = none) (hk : k < 1024) (free : (s.slot k).state = .free) (pins : (s.slot k).pins = 1) :
    releasePin s k = beginCheckpointWrite ((unpin s k).setSlot k { state := .writing, pos := q, pins := 0 }) ⟨k, q, false⟩ := by
  have taken : lowestFreeSlot (unpin s k) = some k := by
    rw [lowestFreeSlot_eq_some]
    refine ⟨hk, ?_, fun j hj => ?_⟩
    · rw [unpin_slot, if_pos rfl, free, pins]
      exact ⟨rfl, rfl⟩
    · rw [unpin_slot, if_neg (by omega)]
      exact (lowestFreeSlot_eq_none s).mp waits j (by omega)
  have left : ((unpin s k).slot k).pins = 0 := by rw [unpin_slot, if_pos rfl, pins]
  unfold releasePin
  rw [due, write, waits]
  unfold takeFreeSlot
  simp only [taken]
  rw [← left]

/-- Otherwise the pin alone falls: no write waits, or the slot is pinned still or not FREE (R65, R70). -/
theorem releasePin_only (s : State) (k : Nat)
    (h : s.directory.due = none ∨ s.directory.write ≠ none ∨ lowestFreeSlot s ≠ none ∨ 1024 ≤ k ∨
      (s.slot k).state ≠ .free ∨ 2 ≤ (s.slot k).pins) : releasePin s k = unpin s k := by
  unfold releasePin
  split
  next q due write waits =>
    have still : lowestFreeSlot (unpin s k) = none := by
      rw [lowestFreeSlot_eq_none]
      intro j hj
      rw [unpin_slot]
      split
      next e =>
        subst e
        rintro ⟨free, pins⟩
        change (s.slot j).pins - 1 = 0 at pins
        change (s.slot j).state = .free at free
        have kept := (lowestFreeSlot_eq_none s).mp waits j hj
        rcases h with h | h | h | h | h | h
        · exact absurd (due.symm.trans h) (by simp)
        · exact h write
        · exact h waits
        · omega
        · exact h free
        · omega
      next => exact (lowestFreeSlot_eq_none s).mp waits j hj
    unfold takeFreeSlot
    simp only [still]
  next => rfl

end Sys2Proof.Machine
end

