-- ==== Sys2Proof/Laws/Commands.lean ====
section
/-! SUPPORT. The start of a dispatched command: what the checks come to when they pass, and the completion of a command
on a state that differs from the one it was found in. -/

namespace Sys2Proof.Machine

/-- A command that is ready is carried out. -/
theorem withCommand_taken {s : State} {n : Nat} {k : CommandKind} {p : PortId} {d : Descriptor} (h : Taken s n k p d)
    (f : PortId → Descriptor → State) : withCommand s n k f = f p d := by
  unfold withCommand
  rw [h.1]
  simp [h.2]

/-- A command that the reservation holds back is carried out while none is held. -/
theorem withJournalCommand_taken {s : State} {n : Nat} {k : CommandKind} {p : PortId} {d : Descriptor}
    (h : Taken s n k p d) (hr : reservationHeld s = false) (f : PortId → Descriptor → State) :
    withJournalCommand s n k f = f p d := by
  unfold withJournalCommand
  rw [withCommand_taken h, hr]
  rfl

/-- A reserving command that may start is carried out. -/
theorem withReservingCommand_taken {s : State} {n : Nat} {k : CommandKind} {p : PortId} {d : Descriptor}
    (h : Taken s n k p d) (hr : mayReserve s n = true) (f : PortId → Descriptor → State) :
    withReservingCommand s n k f = f p d := by
  unfold withReservingCommand
  rw [withCommand_taken h, hr]
  rfl

/-- A view that passes the checks of R76 is taken. -/
theorem checkView_names {s : State} {p : PortId} {d : Descriptor} {v : Slot} (h : NamesView s p d v) (n : Nat)
    (f : Slot → State) : checkView s n p d.target f = f v := by
  obtain ⟨h1, h2, h3, h4⟩ := h
  unfold checkView
  rw [dif_pos (by rw [h1]; exact v.isLt)]
  have hv : (⟨d.target, by rw [h1]; exact v.isLt⟩ : Slot) = v := Fin.ext h1
  simp only [hv]
  rw [if_neg h3, if_neg (fun h => h h2), if_neg h4]

theorem withView_taken {s : State} {n : Nat} {k : CommandKind} {p : PortId} {d : Descriptor} {v : Slot}
    (h : Taken s n k p d) (hv : NamesView s p d v) (f : PortId → Descriptor → Slot → State) :
    withView s n k f = f p d v := by
  unfold withView
  rw [withCommand_taken h, checkView_names hv]

theorem withSeekingView_taken {s : State} {n : Nat} {k : CommandKind} {p : PortId} {d : Descriptor} {v : Slot}
    (h : Taken s n k p d) (hr : reservationHeld s = false) (hv : NamesView s p d v)
    (f : PortId → Descriptor → Slot → State) : withSeekingView s n k f = f p d v := by
  unfold withSeekingView
  rw [withJournalCommand_taken h hr, checkView_names hv]

/-- A command is found by what the ports hold alone. -/
theorem findCommand_of_ports {s u : State} (h : u.ports = s.ports) (n : Nat) : findCommand u n = findCommand s n := by
  unfold findCommand
  rw [h]

/-- A command that has been started is found with its mark set. -/
theorem findCommand_markStarted {s : State} {n : Nat} {p : PortId} {c : InFlight} (h : findCommand s n = some (p, c)) :
    findCommand (markStarted s n) n = some (p, { c with started := true }) := by
  unfold findCommand markStarted at *
  rw [List.findSome?_eq_some_iff] at h ⊢
  obtain ⟨l1, a, l2, h1, h2, h3⟩ := h
  have key : ∀ (l : List InFlight), (l.map fun c => if c.serial = n then { c with started := true } else c).find?
      (fun c => c.serial == n) = (l.find? fun c => c.serial == n).map fun c => { c with started := true } := by
    intro l
    induction l with
    | nil => rfl
    | cons x l ih =>
      by_cases hx : x.serial = n
      · simp [hx]
      · simp [hx, ih]
  refine ⟨l1, a, l2, h1, ?_, ?_⟩
  · simp only [Vector.getElem_map, Fin.getElem_fin] at *
    rw [key]
    cases hf : List.find? (fun c => c.serial == n) s.ports[a.val].inFlight with
    | none => rw [hf] at h2; simp at h2
    | some x => rw [hf] at h2; simp at h2 ⊢; obtain ⟨rfl, rfl⟩ := h2; simp
  · intro b hb
    have := h3 b hb
    simp only [Vector.getElem_map, Fin.getElem_fin] at *
    rw [key]
    simpa using this

/-- A command whose work on `s` comes to `complete u n …` completes on `u`, when `u` holds the ports of `s`. -/
theorem completes_of_eq {i : Instr} {s u : State} {n : Nat} {p : PortId} {c : InFlight} {r : Result} {v1 v2 v3 : Nat}
    (he : exec i s = .next (complete u n r v1 v2 v3)) (hf : findCommand u n = some (p, c)) :
    Completes i s u n p c.descriptor r v1 v2 v3 :=
  ⟨_, he, complete_spec u n r v1 v2 v3 p c hf⟩

end Sys2Proof.Machine
end

