-- ==== Sys2Proof/Laws/Merge.lean ====
section
/-! SUPPORT. What the tests of the Merge Unit mean: which record takes an arrival, which arrivals are late, contradict a
record or wait for a write, and when a record is committed. -/

namespace Sys2Proof.Machine

/-- When a window record can take an arrival (R38). -/
theorem canTake_iff (a : Arrival) (r : WindowRecord) : canTake a r = true ↔
    r.device = a.device ∧ r.state = a.state ∧ (∀ w ∈ r.witnesses, w.src ≠ a.witness.src) ∧
      timeDistance r.first.time a.witness.time ≤ min (a.witness.unc + r.first.unc) Config.foldLimit := by
  simp [canTake, and_assoc]

/-- When an arrival contradicts a window record (R40). -/
theorem contradicts_iff (a : Arrival) (r : WindowRecord) : contradicts a r = true ↔
    r.device = a.device ∧ r.state ≠ a.state ∧
      timeDistance a.witness.time r.first.time ≤ a.witness.unc + r.first.unc := by
  simp [contradicts, within, and_assoc]

/-- When a key is late (R37). -/
theorem isLate_iff (s : State) (k : Key) : isLate s k = true ↔ ∃ q, s.merge.settled = some q ∧ k.le q = true := by
  unfold isLate
  cases s.merge.settled <;> simp

/-- When commits are held (R45). -/
theorem commitsHeld_iff (s : State) : commitsHeld s = true ↔
    checkpointHold s = true ∨ s.journal.committed = Config.journalCapacity ∨ s.journal.state = .rebuilding := by
  simp [commitsHeld, or_assoc]

/-- Whether SEAL's first step is in progress (R55). -/
theorem sealing_iff (s : State) : sealing s = true ↔
    ∃ n clamped k, s.journal.reserved = some ⟨n, clamped, .sealing k⟩ := by
  unfold sealing
  rcases s.journal.reserved with _ | ⟨n, clamped, work⟩
  · simp
  · cases work <;> simp

/-- When the lowest record is to be committed (R42, R54, R55). -/
theorem wantsCommit_iff (s : State) (r : WindowRecord) : wantsCommit s r = true ↔
    (∃ h, s.merge.run = some h ∧ h.settles r.first.time = true) ∨
      (∃ f ∈ s.merge.flushes, r.key.le f.noted = true) ∨ sealing s = true := by
  unfold wantsCommit
  cases s.merge.run <;> simp [or_assoc]

/-- A forced commit pauses the arrivals still to be resumed where commits are then held by a checkpoint write (R45). -/
theorem pauseResuming_eq (s : State) : pauseResuming s = { s with merge := { s.merge with
    paused := s.merge.paused || ((s.directory.write.isSome || s.directory.due.isSome) && !s.merge.resuming.isEmpty) } } :=
  rfl

/-- The batch found by its number has it. -/
theorem findBatch_serial {s : State} {n : Nat} {b : Batch} (h : findBatch s n = some b) : b.serial = n := by
  have h' : s.batches.find? (fun b => b.serial == n) = some b := h
  exact eq_of_beq (List.find?_some h' :)

/-- The end of an arrival's path but for the commit run that follows it (R35, R53): its batch goes on, or completes. -/
theorem endArrival_eq (s : State) (a : Arrival) (late full : Bool) : endArrival s a late full =
    startRun (let u := { s with merge := { s.merge with path := .idle } }
      match findBatch s a.batch with
      | none => u
      | some b =>
        let c := { b with handed := false, late := b.late + bit late }
        if full = true ∨ b.count ≤ b.taken then completeBatch u c full else setBatch u c) := by
  unfold endArrival
  have h : ∀ u : Merge, findBatch { s with merge := u } a.batch = findBatch s a.batch := fun _ => rfl
  simp only [h]
  cases findBatch s a.batch with
  | none => rfl
  | some b => simp

/-- While no entry is being written no arrival waits for one. -/
theorem waitsForWrite_of_idle {s : State} (a : Arrival) (h : s.merge.writing = none) : waitsForWrite s a = false := by
  simp [waitsForWrite, h]

/-- The arrival taken next was handed over and need not wait. -/
theorem nextArrival_spec {s : State} {a : Arrival} (h : nextArrival s = some a) :
    a ∈ s.merge.handed ∧ waitsForWrite s a = false := by
  have h' : s.merge.handed.find? (fun a => !waitsForWrite s a) = some a := h
  exact ⟨List.mem_of_find?_eq_some h', by simpa using List.find?_some h'⟩

/-- Where none is taken next, each arrival handed over waits for the write. -/
theorem nextArrival_none {s : State} (h : nextArrival s = none) : ∀ a ∈ s.merge.handed, waitsForWrite s a = true := by
  have h' : s.merge.handed.find? (fun a => !waitsForWrite s a) = none := h
  simpa using h'

end Sys2Proof.Machine
end

