-- ==== Sys2Proof/Laws/Views.lean ====
section
/-! SUPPORT. What view work reaches: every operation of the View Engine leaves the state as it was but for one slot's view
and image, the ports, the local replica, the packets held for sending and the arbiter. -/

namespace Sys2Proof.Machine

/-- `t` is `s` but for slot `v`'s view and image, the ports, the local replica, the packets held for sending and the
arbiter. -/
def AtView (s t : State) (v : Slot) : Prop :=
  t = { s with
    ring := { s.ring with replica := t.ring.replica, own := t.ring.own }
    ports := t.ports, views := t.views, arbiter := t.arbiter
    dram := { s.dram with viewImages := t.dram.viewImages } } ∧
  (∀ x : Slot, x ≠ v → t.views[x] = s.views[x]) ∧
  (∀ x : Slot, x ≠ v → t.dram.viewImages[x] = s.dram.viewImages[x])

/-! ### The relation -/

theorem AtView.refl (s : State) (v : Slot) : AtView s s v := ⟨rfl, fun _ _ => rfl, fun _ _ => rfl⟩

theorem AtView.trans {s t u : State} {v : Slot} (h : AtView s t v) (k : AtView t u v) : AtView s u v := by
  refine ⟨?_, fun x hx => (k.2.1 x hx).trans (h.2.1 x hx), fun x hx => (k.2.2 x hx).trans (h.2.2 x hx)⟩
  rw [k.1, h.1]

/-- What no view work reaches. -/
theorem AtView.sameJournal {s t : State} {v : Slot} (h : AtView s t v) : SameJournal s t := by
  unfold SameJournal
  rw [h.1]
  exact ⟨rfl, rfl, rfl, rfl, rfl, rfl, rfl, rfl, rfl, rfl, rfl⟩

theorem AtView.directory {s t : State} {v : Slot} (h : AtView s t v) : t.directory = s.directory := by rw [h.1]
theorem AtView.merge {s t : State} {v : Slot} (h : AtView s t v) : t.merge = s.merge := by rw [h.1]
theorem AtView.journal {s t : State} {v : Slot} (h : AtView s t v) : t.journal = s.journal := by rw [h.1]
theorem AtView.parked {s t : State} {v : Slot} (h : AtView s t v) : t.parked = s.parked := by rw [h.1]
theorem AtView.copies {s t : State} {v : Slot} (h : AtView s t v) : t.copies = s.copies := by rw [h.1]
theorem AtView.ring_up {s t : State} {v : Slot} (h : AtView s t v) : t.ring.up = s.ring.up := by rw [h.1]

/-- A left fold of operations of one slot. -/
theorem atView_foldl {α : Type} (v : Slot) (f : State → α → State) (hf : ∀ s a, AtView s (f s a) v) (l : List α) :
    ∀ s, AtView s (l.foldl f s) v := by
  induction l with
  | nil => exact fun s => AtView.refl s v
  | cons a l ih => exact fun s => (hf s a).trans (ih (f s a))

/-! ### Plain updates -/

theorem atView_partWrite (s : State) (v : Slot) (a : Nat) (bs : List Byte) : AtView s (s.partWrite a bs) v :=
  ⟨rfl, fun _ _ => rfl, fun _ _ => rfl⟩

theorem atView_setPort (s : State) (v : Slot) (p : PortId) (x : Port) : AtView s (s.setPort p x) v :=
  ⟨rfl, fun _ _ => rfl, fun _ _ => rfl⟩

theorem atView_setView (s : State) (v : Slot) (x : View) : AtView s (s.setView v x) v :=
  ⟨rfl, fun y hy => by rw [State.setView_get, if_neg hy], fun _ _ => rfl⟩

theorem atView_setViewImage (s : State) (v : Slot) (img : Image) : AtView s (s.setViewImage v img) v :=
  ⟨rfl, fun _ _ => rfl, fun y hy => by
    simp only [State.setViewImage]
    have hv : v.val ≠ y.val := fun e => hy (Fin.ext e.symm)
    exact Vector.getElem_set_ne v.isLt y.isLt hv⟩

theorem atView_submit (s : State) (v : Slot) (w : Requester) (rs : List Request) : AtView s (s.submit w rs) v :=
  ⟨rfl, fun _ _ => rfl, fun _ _ => rfl⟩

theorem atView_arbiter (s : State) (v : Slot) (a : Arbiter) : AtView s { s with arbiter := a } v :=
  ⟨rfl, fun _ _ => rfl, fun _ _ => rfl⟩

/-- What reaches a port alone reaches no view. -/
theorem AtPort.atView {s t : State} {p : PortId} (h : AtPort s t p) (v : Slot) : AtView s t v := by
  refine ⟨?_, fun x _ => ?_, fun x _ => ?_⟩
  · rw [h.1]
  · rw [h.1]
  · rw [h.1]

/-! ### Causes and completions -/

theorem atPort_fireGate (s : State) (p : PortId) : AtPort s (fireGate s p) p := by
  unfold fireGate
  split
  · split
    · exact ((atPort_sendNotice _ _ _ _ _).trans (atPort_setPort _ _ _)).trans (atPort_partWrite _ _ _ _)
    · exact AtPort.refl s p
  · exact AtPort.refl s p

theorem atPort_raiseCause (s : State) (p : PortId) (c : Cause) : AtPort s (raiseCause s p c) p := by
  unfold raiseCause
  split
  · exact ((atPort_setPort _ _ _).trans (atPort_partWrite _ _ _ _)).trans (atPort_fireGate _ _)
  · exact AtPort.refl s p

theorem atView_complete (s : State) (v : Slot) (n : Nat) (r : Result) (v1 v2 v3 : Nat) :
    AtView s (complete s n r v1 v2 v3) v := by
  cases h : findCommand s n with
  | none => unfold complete; rw [h]; exact AtView.refl s v
  | some x =>
    obtain ⟨_, o, q, _⟩ := complete_spec s n r v1 v2 v3 x.1 x.2 h
    exact AtPort.atView ⟨o, q⟩ v

/-! ### Delta records, marks and stops -/

theorem atView_discardFrame (s : State) (v : Slot) : AtView s (discardFrame s v) v :=
  (atView_setView s v _).trans (atView_arbiter _ v _)

theorem atView_bringToHeld (s : State) (v : Slot) : AtView s (bringToHeld s v) v :=
  (atView_discardFrame s v).trans (atView_setView _ v _)

theorem atView_evaluateRoom (s : State) (v : Slot) : AtView s (evaluateRoom s v) v := by
  unfold evaluateRoom
  split
  · exact (atPort_raiseCause _ _ _).atView v
  · exact AtView.refl s v

theorem atView_writeDelta (s : State) (v : Slot) (bs : List Byte) : AtView s (writeDelta s v bs) v :=
  (atView_partWrite s v _ _).trans (atView_setView _ v _)

theorem atView_writeMark (s : State) (v : Slot) (bs : List Byte) : AtView s (writeMark s v bs) v := by
  unfold writeMark
  simp only
  split
  · exact (atView_evaluateRoom s v).trans (atView_writeDelta _ v _)
  · exact (atView_evaluateRoom s v).trans (atView_setView _ v _)

theorem atView_endStep (s : State) (v : Slot) (cause : StopCause) : AtView s (endStep s v cause) v := by
  unfold endStep
  simp only
  split
  · exact (atView_setView s v _).trans (atView_complete _ v _ _ _ _ _)
  · exact AtView.refl s v

/-- A stop reaches its own view. -/
theorem atView_stopView (s : State) (v : Slot) (cause : StopCause) (device : Nat) : AtView s (stopView s v cause device) v := by
  unfold stopView
  simp only
  have a := fun (x : View) (bs : List Byte) => (((atView_bringToHeld s v).trans (atView_setView _ v x)).trans
    (atView_writeMark _ v (stopMarkBytes cause device))).trans (atView_partWrite _ v (Config.viewStatusAddr v) bs)
  split
  · exact ((a _ _).trans ((atPort_raiseCause _ _ _).atView v)).trans (atView_endStep _ v _)
  · exact (a _ _).trans (atView_endStep _ v _)

/-! ### Frames -/

theorem atView_stepCounter (s : State) (v : Slot) : AtView s (stepCounter s v) v :=
  (atView_setView s v _).trans (atView_partWrite _ v _ _)

theorem atView_writeImageWords (s : State) (v : Slot) (img : Image) (ws : List Nat) :
    AtView s (writeImageWords s v img ws) v :=
  atView_foldl v _ (fun s _ => atView_partWrite s v _ _) ws s

theorem atView_reviseImage (s : State) (v : Slot) (old new : Image) (devices : List Nat) :
    AtView s (reviseImage s v old new devices) v := by
  unfold reviseImage
  simp only
  split
  · exact ((atView_stepCounter s v).trans (atView_writeImageWords _ v _ _)).trans (atView_stepCounter _ v)
  · exact atView_setView s v _

theorem atView_writeWholeImage (s : State) (v : Slot) : AtView s (writeWholeImage s v) v :=
  ((atView_stepCounter s v).trans (atView_partWrite _ v _ _)).trans (atView_stepCounter _ v)

theorem atView_beginFrame (s : State) (v : Slot) : AtView s (beginFrame s v) v :=
  (atView_setView s v _).trans (atView_submit _ v _ _)

/-- The forming of a frame reaches its own view. -/
theorem atView_formFrame (s : State) (v : Slot) : AtView s (formFrame s v) v := by
  unfold formFrame
  simp only
  split
  · exact AtView.refl s v
  · split
    · split
      · exact atView_beginFrame s v
      · exact atView_stopView s v _ _
    · split
      · exact atView_beginFrame s v
      · split
        · exact atView_stopView s v _ _
        · exact (atView_setView s v _).trans (atView_partWrite _ v _ _)

/-- The publication of a frame reaches its own view. -/
theorem atView_applyFrame (s : State) (v : Slot) (f : Frame) : AtView s (applyFrame s v f) v := by
  unfold applyFrame
  simp only
  have a := fun (w : View) (old new : Image) (ds : List Nat) (records : List (List Byte)) (bs : List Byte)
      (rs : List Request) =>
    ((((((atView_setViewImage s v new).trans (atView_setView _ v w)).trans (atView_reviseImage _ v old new ds)).trans
      (atView_foldl v (fun s bs => writeDelta s v bs) (fun s _ => atView_writeDelta s v _) records _)).trans
      (atView_partWrite _ v (Config.viewStatusAddr v) bs)).trans (atView_submit _ v (.view v) rs))
  split
  · exact (a _ _ _ _ _ _ _).trans (atView_stopView _ v _ _)
  · exact (a _ _ _ _ _ _ _).trans (atView_formFrame _ v)

theorem atView_publishFrame (s : State) (v : Slot) (f : Frame) : AtView s (publishFrame s v f) v := by
  unfold publishFrame
  simp only
  split
  · exact (atView_evaluateRoom s v).trans (atView_applyFrame _ v f)
  · exact ((atView_evaluateRoom s v).trans (atView_setView _ v _)).trans (atView_partWrite _ v _ _)

theorem atView_releaseFrame (s : State) (v : Slot) (f : Frame) : AtView s (releaseFrame s v f) v := by
  unfold releaseFrame
  simp only
  split
  · exact atView_stopView s v _ _
  · exact atView_publishFrame s v f

theorem atView_handOver (s : State) (v : Slot) (f : Frame) : AtView s (handOver s v f) v := by
  unfold handOver
  simp only
  split
  · exact atView_releaseFrame s v f
  · exact atView_setView s v _

theorem atView_frameRead (s : State) (v : Slot) (f : Frame) : AtView s (frameRead s v f) v := by
  unfold frameRead
  simp only
  split
  · exact (atView_setView s v _).trans (atView_handOver _ v _)
  · exact (atView_setView s v _).trans (atView_partWrite _ v _ _)

/-- The end of a frame's block reaches its own view. -/
theorem atView_frameBlockRead (s : State) (v : Slot) : AtView s (frameBlockRead s v) v := by
  unfold frameBlockRead
  extract_lets w
  split
  · exact AtView.refl s v
  · split
    · exact atView_stopView s v _ _
    · extract_lets armed g u
      have h : AtView s u v := atView_setView s v _
      split
      · exact h.trans (atView_frameRead u v _)
      · exact h.trans (atView_submit u v _ _)

theorem atView_retryStalled (s : State) (v : Slot) : AtView s (retryStalled s v) v := by
  unfold retryStalled
  split
  · simp only
    split
    · exact (atView_evaluateRoom s v).trans (atView_applyFrame _ v _)
    · exact atView_evaluateRoom s v
  · exact AtView.refl s v

/-! ### Commits and seeks -/

theorem atView_carryView (s : State) (v : Slot) : AtView s (carryView s v) v :=
  ((((atView_setViewImage s v _).trans (atView_setView _ v _)).trans (atView_reviseImage _ v _ _ _)).trans
    (atView_partWrite _ v _ _)).trans (atView_submit _ v _ _)

theorem atView_edgeUpdate (s : State) (v : Slot) : AtView s (edgeUpdate s v) v := by
  unfold edgeUpdate
  simp only
  split
  · split
    · exact ((atView_setView s v _).trans (atView_partWrite _ v _ _)).trans (atView_formFrame _ v)
    · split
      · exact atView_stopView s v _ _
      · exact AtView.refl s v
  · split
    · exact ((atView_setView s v _).trans (atView_partWrite _ v _ _)).trans (atView_handOver _ v _)
    · exact atView_setView s v _

/-- What a commit does to a view reaches that view. -/
theorem atView_viewAtCommit (p : Nat) (s : State) (v : Slot) : AtView s (viewAtCommit p s v) v := by
  unfold viewAtCommit
  simp only
  split
  · exact atView_carryView s v
  · split
    · exact atView_edgeUpdate s v
    · exact AtView.refl s v

theorem atView_enterSeeking (s : State) (v : Slot) (k : SeekOp) : AtView s (enterSeeking s v k) v :=
  (atView_setView s v _).trans (atView_partWrite _ v _ _)

theorem atView_finishTransfer (s : State) (v : Slot) : AtView s s.finishTransfer v := atView_arbiter s v _

/-- The end of a seek reaches its own view. -/
theorem atView_finishSeek (s : State) (v : Slot) (k : SeekOp) : AtView s (finishSeek s v k) v := by
  unfold finishSeek
  extract_lets s1 s2 w2 c3 s3 s4 w4 c5 s5 c6 s6
  have h1 : AtView s s1 v := by
    unfold s1
    split
    · exact atView_finishTransfer s v
    · exact AtView.refl s v
  have h2 : AtView s s2 v := h1.trans (atView_setViewImage s1 v _)
  have h3 : AtView s s3 v := h2.trans (atView_setView s2 v _)
  have h4 : AtView s s4 v :=
    h3.trans (atView_foldl v (fun s (_ : Nat) => carryView s v) (fun s _ => atView_carryView s v) _ s3)
  have h5 : AtView s s5 v := by
    unfold s5
    split
    · exact h4.trans (atView_writeWholeImage s4 v)
    · exact h4.trans (atView_setView s4 v _)
  have h6 : AtView s s6 v := h5.trans (atView_setView s5 v _)
  exact (h6.trans (atView_writeMark s6 v _)).trans (atView_partWrite _ v _ _)

theorem atView_freeView (s : State) (v : Slot) : AtView s (freeView s v) v :=
  ((atView_discardFrame s v).trans (atView_setView _ v _)).trans (atView_partWrite _ v _ _)

theorem atView_startRoute (s : State) (v : Slot) : AtView s (startRoute s v) v := by
  unfold startRoute
  split
  · split
    · exact (atView_setView s v _).trans (atView_submit _ v _ _)
    · exact (atView_setView s v _).trans (atView_submit _ v _ _)
    · exact AtView.refl s v
  · exact AtView.refl s v

/-- The choice of a route changes the seek of its own view and the directory's slots alone. -/
theorem fixRoute_eq (s : State) (v : Slot) (k : SeekOp) : fixRoute s v k = { s with
    views := (fixRoute s v k).views, directory := { s.directory with slots := (fixRoute s v k).directory.slots } } := by
  unfold fixRoute
  split <;> rfl

/-- The choice of a route leaves every other view as it was. -/
theorem fixRoute_views_ne (s : State) (v x : Slot) (k : SeekOp) (h : x ≠ v) : (fixRoute s v k).views[x] = s.views[x] := by
  unfold fixRoute
  split
  · exact (atView_setView (pin s _) v _).2.1 x h
  · exact (atView_setView s v _).2.1 x h

/-! ### Views being parked (R98, R174) -/

/-- When a slot's view is being parked. -/
theorem parking_iff (s : State) (v : Slot) : parking s v = true ↔ ∃ n i, CopyJob.park n v i ∈ s.copies := by
  unfold parking
  rw [List.any_eq_true]
  constructor
  · rintro ⟨j, hj, h⟩
    cases j with
    | park n w i => exact ⟨n, i, by rwa [← eq_of_beq h]⟩
    | restore w => cases h
  · rintro ⟨n, i, h⟩
    exact ⟨_, h, beq_self_eq_true v⟩

/-- When a PARK in flight is to fill a parked entry. -/
theorem promised_iff (s : State) (i : Nat) : promised s i = true ↔ ∃ n v, CopyJob.park n v i ∈ s.copies := by
  unfold promised
  rw [List.any_eq_true]
  constructor
  · rintro ⟨j, hj, h⟩
    cases j with
    | park n w k => exact ⟨n, w, by rwa [← eq_of_beq h]⟩
    | restore w => cases h
  · rintro ⟨n, v, h⟩
    exact ⟨_, h, beq_self_eq_true i⟩

/-- The entry PARK takes is below 64, empty and promised to no other PARK. -/
theorem lowestEmptyParked_some {s : State} {i : Nat} (h : lowestEmptyParked s = some i) :
    i < 64 ∧ s.parkedEntry i = none ∧ promised s i = false := by
  have h' : (List.range 64).find? (fun i => (s.parkedEntry i).isNone && !promised s i) = some i := h
  have hi := List.find?_some h'
  refine ⟨List.mem_range.1 (List.mem_of_find?_eq_some h'), ?_⟩
  simpa using hi

/-! ### The pacing timers (R109, R110) -/

/-- Whether a timer ends a segment in the microsecond that comes, as a test that can be run. -/
theorem segmentOver_any (s : State) (v : Slot) : SegmentOver s v ↔
    (s.views[v].timer.any fun c =>
      decide ((if (s.timebase + 1) % c.tap = 0 then c.count - 1 else c.count) = 0)) = true := by
  simp [SegmentOver, Option.any_eq_true]

theorem pulse_count (now : Nat) (c : Countdown) :
    (c.pulse now).count = if now % c.tap = 0 then c.count - 1 else c.count := by
  unfold Countdown.pulse
  split <;> rfl

@[simp] theorem pulse_tap (now : Nat) (c : Countdown) : (c.pulse now).tap = c.tap := by
  unfold Countdown.pulse
  split <;> rfl

@[simp] theorem pulse_segments (now : Nat) (c : Countdown) : (c.pulse now).segments = c.segments := by
  unfold Countdown.pulse
  split <;> rfl

/-- When a timer row is the microsecond that ends a segment of its slot. -/
theorem segmentEnds_iff (s : State) (v : Slot) (f : Nat → Bool) : segmentEnds s v f = true ↔
    ∃ c, s.views[v].timer = some c ∧ (c.pulse (s.timebase + 1)).count = 0 ∧ f c.segments = true := by
  unfold segmentEnds
  cases s.views[v].timer <;> simp

theorem atView_expireTimer (s : State) (v : Slot) : AtView s (expireTimer s v) v := by
  unfold expireTimer
  simp only
  split
  · exact (atView_setView s v _).trans (atView_releaseFrame _ v _)
  · exact atView_setView s v _

/-- The end of a segment reaches its own view. -/
theorem atView_endSegment (s : State) (v : Slot) : AtView s (endSegment s v) v := by
  unfold endSegment
  split
  · split
    · split
      · exact atView_expireTimer s v
      · exact atView_setView s v _
    · exact AtView.refl s v
  · exact AtView.refl s v

end Sys2Proof.Machine
end

