-- ==== Sys2Proof/WellFormed.lean ====
section
/-! DEFINITION. What the spec says the outside can present: the packets a ring carries (R155) and the strappings a
board gives (00_scope.md, Physical summary). The machine takes an ill-formed command too, by the checks of R157 and
the clamps of R166. -/

namespace Sys2Proof

/-- A ring write carries 8 to 256 bytes of data (R155). -/
def Packet.wellFormed : Packet → Bool
  | .write _ _ data _ => decide (8 ≤ data.length ∧ data.length ≤ 256)
  | .notice .. => true
  | .sync .. => true

/-- The ring-size straps give 2 to 32 nodes, and the node number is one of them (00_scope.md, Physical summary). -/
def wellFormedStraps (nodeStraps : BitVec 5) (sizeStraps : BitVec 6) : Bool :=
  decide (2 ≤ sizeStraps.toNat ∧ sizeStraps.toNat ≤ 32 ∧ nodeStraps.toNat < sizeStraps.toNat)

/-- The commands the spec says the outside can present. -/
def Instr.wellFormed : Instr → Bool
  | .reset n z => wellFormedStraps n z
  | .packetArrival p => p.wellFormed
  | .signalGained => true
  | .syncTimeout => true
  | .signalLoss => true
  | .transmitPacket => true
  | .attach => true
  | .detach => true
  | .detachEnd _ => true
  | .kick => true
  | .rearm => true
  | .fetch _ => true
  | .dispatch => true
  | .format _ => true
  | .loadCatalogue _ => true
  | .catalogueWriteEnd => true
  | .loadBatch _ => true
  | .alignRecord _ => true
  | .lateAppendEnd => true
  | .commitWriteEnd => true
  | .checkpointWriteStart => true
  | .checkpointWriteEnd => true
  | .checkpointLoadEnd _ => true
  | .flush _ => true
  | .seal _ => true
  | .truncate _ => true
  | .truncateRebuildEnd => true
  | .readLate _ => true
  | .readEntries _ => true
  | .readoutCopyEnd _ => true
  | .querySource _ => true
  | .defineSource _ => true
  | .claimSource _ => true
  | .releaseSource _ => true
  | .endSource _ => true
  | .anchorSource _ => true
  | .openView _ => true
  | .seek _ => true
  | .seekEnd _ => true
  | .returnMark _ => true
  | .mark _ => true
  | .park _ => true
  | .resume _ => true
  | .exchange _ => true
  | .closeView _ => true
  | .run _ => true
  | .hold _ => true
  | .step _ => true
  | .setPace _ => true
  | .setStops _ => true
  | .setFilter _ => true
  | .publish _ => true
  | .clearCauses _ => true
  | .frameReadEnd _ => true
  | .timerSegmentReload _ => true
  | .pacingTimerExpiry _ => true
  | .dramGrant => true
  | .parkedContextCopyEnd => true

end Sys2Proof
end

