-- ==== Sys2Proof/Tests/Slice0.lean ====
section
/-! SUPPORT. Tests: ill-formed commands that the checks refuse, the spec's worked examples, for every statement a state
and operands that meet its hypotheses (`witness_…`), and for every command one step on a small state (`test_…`). -/

open Sys2Proof Sys2Proof.Machine

namespace Sys2Proof.Tests

set_option Elab.async false

/-! ### Small states -/

/-- A descriptor with tag 7 and NOTIFY, and `rest` from offset 8 on; bytes not given read as 0. -/
def desc (kind target target2 : Nat) (rest : List Byte) : Descriptor :=
  ⟨leBytes 2 7 ++ [byte kind, 1] ++ leBytes 2 target ++ leBytes 2 target2 ++ rest⟩

/-- Port 0 bound to node 5 and port 1 to node 2, the ring UP, the journal BUILDING and empty, with 4 devices, slack 1,000
and checkpoint 0 in slot 0. -/
def station : State :=
  { State.reset with
    ring := { Ring.reset with up := true, signal := true, size := 6 }
    ports := (State.reset.ports.set 0 { bound := some 5, depth := 8 }).set 1 { bound := some 2, depth := 8 }
    journal := { Journal.reset with state := .building, deviceCount := 4, slack := 1000 }
    directory := { Directory.reset with slots := [(0, { state := .inUse })] } }

/-- `s` with one command, number 0, in flight at port 0. -/
def given (s : State) (d : Descriptor) : State := s.setPort 0 { s.ports[0] with inFlight := [⟨0, d, false⟩] }

/-- `s` with bytes at staging position 0 of port 0. -/
def staged (s : State) (bs : List Byte) : State :=
  { s with ring := { s.ring with replica := replicaWrite s.ring.replica (stagingAddr 0 0) bs } }

/-- `s` with a word at replica address `a`. -/
def worded (s : State) (a : Nat) (bs : List Byte) : State :=
  { s with ring := { s.ring with replica := replicaWrite s.ring.replica a bs } }

/-- `s` with a last request on the channel. -/
def granted (s : State) (w : Requester) (cls : RequestClass) (k : RequestKind) : State :=
  { s with arbiter := { s.arbiter with channel := some ⟨w, cls, k, true⟩ } }

/-- `s` with port 0 alone set. -/
def ported (s : State) (x : Port) : State := s.setPort 0 x

/-- A journal entry of uncertainty 5 and witness (3, 1). -/
def entry (time device : Nat) (new prior : SwitchState) : Entry :=
  ⟨time, 5, device, new, prior, false, false, false, false, {}, none, [(3, 1)]⟩

/-- `station` with three entries committed. -/
def recorded : State :=
  { station with
    journal := { station.journal with committed := 3 }
    merge := { station.merge with
      settled := some ⟨30000, 5, 3, 1⟩
      image := [(0, ⟨.opened, false⟩), (1, ⟨.opened, false⟩)]
      lastChange := [(0, some ⟨30000, 5, 2⟩), (1, some ⟨20000, 5, 1⟩)] }
    dram := { station.dram with
      journal := [entry 10000 0 .closed .unknown, entry 20000 1 .opened .unknown, entry 30000 0 .opened .closed] } }

/-- A window record of device 2, CLOSED, with the one witness (3, seq). -/
def reported (time seq : Nat) : WindowRecord := ⟨2, .closed, false, false, ⟨3, seq, time, 5, {}, none, seq⟩, []⟩

/-- `s` with source 3 in a state, owned by port 0. -/
def sourced (s : State) (st : SourceState) : State := s.setSource 3 { state := st, owner := some 0 }

/-- `recorded` with view 2 of port 0 HELD at cursor 1 in an open window. -/
def watching : State :=
  { recorded with
    views := recorded.views.set 2 { state := .held, noGap := false, ctx := { cursor := 1, cursorTime := 10000 } }
    dram := { recorded.dram with viewImages := recorded.dram.viewImages.set 2 [(0, ⟨.closed, false⟩)] } }

/-- `watching` with the view set. -/
def viewed (x : View) : State := watching.setView 2 x

/-- View 2 RUNNING, its first frame being read. -/
def playing : View :=
  { watching.views[(2 : Slot)] with state := .running, frame := some ⟨0, 0, .a, none, .reading⟩ }

/-- View 2 with a frame of one entry whose delay ends in the microsecond that comes. -/
def delayed : View :=
  { playing with frame := some ⟨1, 1, .a, none, .delaying false⟩, timer := some ⟨1, 1, 0⟩ }

/-- View 2 STALLED with a frame of one entry. -/
def stalled : View := { playing with state := .stalled, frame := some ⟨1, 1, .a, none, .stalled⟩ }

/-- View 2 SEEKING. -/
def seekingBy (k : SeekOp) : View := { watching.views[(2 : Slot)] with state := .seeking, seek := some k }

/-- Whether a step answers a next state that `f` accepts. -/
def gives (o : Host.Outcome State Fault Refusal) (f : State → Bool) : Bool :=
  match o with
  | .next t => f t
  | .fault _ => false
  | .refused _ => false

/-! ### Ill-formed commands -/

theorem test_write_of_7_bytes_refused : (Instr.packetArrival (.write 1 0 (zeros 7) 0)).wellFormed = false := by decide
theorem test_write_of_257_bytes_refused : (Instr.packetArrival (.write 1 0 (zeros 257) 0)).wellFormed = false := by
  decide +kernel
theorem test_write_of_8_bytes_taken : (Instr.packetArrival (.write 1 0 (zeros 8) 0)).wellFormed = true := by decide
theorem test_ring_of_1_refused : (Instr.reset 0 1).wellFormed = false := by decide
theorem test_ring_of_33_refused : (Instr.reset 0 33).wellFormed = false := by decide
theorem test_node_outside_ring_refused : (Instr.reset 6 6).wellFormed = false := by decide
theorem test_node_5_of_6_taken : (Instr.reset 5 6).wellFormed = true := by decide
theorem test_no_word_spells_a_command : decodeTableWord 16 0x1234 = none := rfl

/-! ### Worked alignment cases (02_time_alignment.md) -/

/-- Source A. -/
def sourceA : AlignParams := ⟨100, 0, 3600000000, 2500, -4000, 50, 100⟩
/-- Source B. -/
def sourceB : AlignParams := ⟨1000, 900000000000, 3600000000, 2500, 250, 20, 40⟩
/-- Source C. -/
def sourceC : AlignParams := ⟨1000000, 0, 0, 0, 0, 10, 0⟩
/-- Source D. -/
def sourceD : AlignParams := ⟨1000, 0, 0, 0, 0, 5, 0⟩

theorem test_align_A : align sourceA 12345678901 = ⟨4834560804, 174, false⟩ := by decide +kernel
theorem test_align_B_half : align sourceB 899998999800 = ⟨3599000053, 21, false⟩ := by decide +kernel
/-- By R25 to R28: N is −9 × 10^14. The case's own text has 9 × 10^17 (log entry 17). -/
theorem test_align_B_negative : align sourceB 0 = ⟨0, 36020, true⟩ := by decide +kernel
theorem test_align_C_beyond : align sourceC 2000000000000 = ⟨1099511627775, 65535, true⟩ := by decide +kernel
theorem test_align_D_beyond : align sourceD 2000000000000 = ⟨1099511627775, 5, true⟩ := by decide +kernel
theorem test_quality_classes : [1, 10, 100, 1000, 10000, 10001].map qualityClass = [0, 1, 2, 3, 4, 5] := by decide

/-! ### Worked pacing cases (06_pacing_and_stop_conditions.md) -/

theorem test_pacing_delays :
    [delayOf 1250 2000000 2, delayOf 50 2000000 6, delayOf 900000 2000000 0, delayOf 3500000 2000000 (-1),
      delayOf 75000000 60000000 (-6), delayOf 268431361 60000000 0] = [312, 0, 900000, 4000000, 3840000000, 60000000] := by
  decide +kernel

theorem test_pacing_loads :
    [312, 900000, 4000000, 3840000000, 60000000, 268431361, 268431360].map loadTimer =
      [⟨1, 312, 0⟩, ⟨16, 56250, 0⟩, ⟨256, 15625, 0⟩, ⟨4096, 19996, 14⟩, ⟨4096, 14649, 0⟩, ⟨4096, 65536, 0⟩,
        ⟨4096, 65535, 0⟩] := by decide +kernel

/-! ### Worked merge sequence (03_merging_and_the_switching_journal.md) -/

/-- The state before arrival 1: the settled key, device 812's last change, sources 3 and 5 of port 2. -/
def merging : State :=
  let s := { station with
    journal := { station.journal with slack := 1000000, committed := 42, deviceCount := 6000 }
    merge := { station.merge with
      settled := some ⟨9998500000, 30, 5, 1200⟩
      image := [(812, ⟨.opened, false⟩)]
      lastChange := [(812, some ⟨9998000000, 30, 37⟩)] } }
  (s.setSource 3 { state := .streaming, owner := some 0, maxTime := some 10000000000 }).setSource 5
    { state := .streaming, owner := some 0, maxTime := some 10000200000 }

/-- An arrival of the sequence. -/
def arrival (src seq device : Nat) (st : SwitchState) (time unc : Nat) : Arrival :=
  ⟨0, device, st, ⟨src, seq, time, unc, {}, none, 0⟩⟩

/-- Arrivals 1 and 2 taken. -/
def merging2 : State :=
  takeArrival (takeArrival merging (arrival 3 500 812 .closed 9999400000 174)) (arrival 5 1300 812 .closed 9999400090 21)

theorem test_merge_folds :
    merging2.merge.window.map (fun r => (r.key, r.witnesses.map fun w => (w.src, w.seq), r.ambiguous)) =
      [(⟨9999400090, 21, 5, 1300⟩, [(5, 1300), (3, 500)], false)] := by decide +kernel

theorem test_merge_ambiguous :
    (takeArrival merging2 (arrival 5 1301 812 .opened 9999400120 21)).merge.window.map
      (fun r => (r.key, r.state, r.ambiguous)) =
      [(⟨9999400090, 21, 5, 1300⟩, .closed, true), (⟨9999400120, 21, 5, 1301⟩, .opened, true)] := by decide +kernel

theorem test_merge_late :
    let t := takeArrival merging2 (arrival 3 501 77 .travel 9998400000 174)
    (t.merge.late.map fun l => (l.device, l.settled)) = [(77, ⟨9998500000, 30, 5, 1200⟩)] ∧
      (t.source 3).counters.late = 1 ∧ hasCause t.ports[(0 : PortId)].causes .lateRecords = true := by decide +kernel

/-- The horizon of the sequence. -/
theorem test_merge_horizon : horizon merging = .upTo 9999000000 := by decide +kernel

theorem test_image_byte_and_flags :
    (ImageByte.mk .opened true).encode = 128 ∧ flagByte true true {} true true = 163 := by decide

/-! ### Witnesses and steps: one step, reset, invariants, arithmetic -/

theorem witness_StepTakesFront : ({ station with pending := [.dispatch] } : State).pending = .dispatch :: [] := rfl

/-- View 2's timer is to be reloaded in the microsecond that comes. -/
def reloadingTimer : State := { viewed { delayed with timer := some ⟨4096, 1, 14⟩ } with timebase := 4095 }

/-- Timers that end no segment, one whose tap does not pulse and one that keeps a count; one that is reloaded; the last
segment's end, with a frame and without. -/
theorem witness_IdleStepCountsMicrosecond :
    let s := { viewed { playing with timer := some ⟨16, 1, 0⟩ } with timebase := 14 }
    let r := { viewed { playing with timer := some ⟨16, 2, 0⟩ } with timebase := 15 }
    let bare := viewed { delayed with frame := none }
    (s.pending = [] ∧ ∀ v : Slot, ¬ SegmentOver s v) ∧ (r.pending = [] ∧ ∀ v : Slot, ¬ SegmentOver r v) ∧
    (reloadingTimer.pending = [] ∧ reloadingTimer.views[(2 : Slot)].timer = some ⟨4096, 1, 14⟩ ∧
      SegmentOver reloadingTimer 2 ∧ ∀ x : Slot, x ≠ 2 → ¬ SegmentOver reloadingTimer x) ∧
    (∀ u ∈ [viewed delayed, bare], u.pending = [] ∧ u.views[(2 : Slot)].timer = some ⟨1, 1, 0⟩ ∧ SegmentOver u 2 ∧
      ∀ x : Slot, x ≠ 2 → ¬ SegmentOver u x) ∧
    (viewed delayed).views[(2 : Slot)].frame = some ⟨1, 1, .a, none, .delaying false⟩ ∧
    bare.views[(2 : Slot)].frame = none := by
  simp only [segmentOver_any]; decide +kernel

theorem test_tick_counts :
    gives (step { viewed { playing with timer := some ⟨16, 2, 0⟩ } with timebase := 15 }) (fun t =>
      t.timebase == 16 && t.views[(2 : Slot)].timer == some ⟨16, 1, 0⟩) = true := by decide +kernel

/-- The binding of both ports and the journal are gone; the straps are sampled; the DRAM stays. -/
theorem test_reset :
    gives (exec (.reset 3 6) recorded) (fun t => t.ring.node == 3 && t.ring.size == 6 && !t.ring.up &&
      t.ports[(0 : PortId)].bound == none && t.journal.state == .unformatted && t.dram.journal.length == 3) = true := by
  decide +kernel

theorem test_reset_clamps_size : gives (exec (.reset 3 63) station) (fun t => t.ring.size == 32) = true := by
  decide +kernel

theorem witness_StepKeepsCanonicalForm :
    Canonical { watching with pending := [.signalLoss] } ∧
      ∃ t, step { watching with pending := [.signalLoss] } = .next t := by
  refine ⟨?_, _, rfl⟩
  unfold Canonical; decide +kernel

theorem capacity_watching : WithinCapacity watching := by unfold WithinCapacity; decide +kernel

theorem witness_StepKeepsCapacities :
    WithinCapacity { watching with pending := [.commitWriteEnd] } ∧
      ∃ t, step { watching with pending := [.commitWriteEnd] } = .next t := ⟨capacity_watching, _, rfl⟩

/-- A request of class A waits, with its class aged once. -/
def contending : State :=
  { watching with arbiter := { watching.arbiter with
      waiting := [⟨.commitWriter, .c, .commitWrite, true⟩, ⟨.view 2, .a, .frameRead, false⟩, ⟨.view 6, .a, .frameRead, false⟩]
      ageA := 3, ageC := 1, turnA := 2 } }

theorem arbiter_contending : ArbiterSane contending := by
  refine ⟨fun k => by cases k <;> decide +kernel, ?_⟩
  intro r h
  have h' : r = ⟨.commitWriter, .c, .commitWrite, true⟩ ∨ r = ⟨.view 2, .a, .frameRead, false⟩ ∨
      r = ⟨.view 6, .a, .frameRead, false⟩ := by
    simpa [contending, watching, recorded, station, State.reset, Arbiter.reset] using h
  rcases h' with rfl | rfl | rfl
  · exact ⟨fun h => (by cases h), fun h => (by cases h)⟩
  · exact ⟨fun _ => ⟨2, rfl⟩, fun h => (by cases h)⟩
  · exact ⟨fun _ => ⟨6, rfl⟩, fun h => (by cases h)⟩

theorem witness_StepKeepsArbiterDepthsAndRing_arbiter :
    ArbiterSane { contending with pending := [.dramGrant] } ∧
      ∃ t, step { contending with pending := [.dramGrant] } = .next t := ⟨arbiter_contending, _, rfl⟩

theorem witness_StepKeepsArbiterDepthsAndRing :
    let s := { ported station { bound := some 5, depth := 2, look := true } with pending := [.fetch 0] }
    WithinDepth s ∧ RingSane s ∧ ∃ t, step s = .next t := by
  refine ⟨?_, ?_, _, rfl⟩
  · unfold WithinDepth; decide +kernel
  · unfold RingSane; decide +kernel

/-- Both signs, and no drift. -/
theorem witness_DriftCorrectionRounding :
    0 ≤ elapsedNs sourceA 1 * sourceA.driftPpb ∧ elapsedNs sourceB 899998999800 * sourceB.driftPpb ≤ 0 ∧
      sourceD.driftPpb = 0 := by decide

/-- Beyond 2^60 and at it; below zero; the ends of the timeline; the drift part of the uncertainty. -/
theorem witness_AlignedTimeAndUncertainty :
    let one : AlignParams := ⟨1, 0, 0, 0, 0, 0, 0⟩
    1152921504606846976 < (elapsedNs one 1152921504606846977).natAbs ∧
    (elapsedNs one 1152921504606846976).natAbs ≤ 1152921504606846976 ∧ studyNs sourceB 0 < 0 ∧
    (0 ≤ studyNs one 0 ∧ ((0 : Nat) : Int) * 1000 ≤ studyNs one 0 + 500 ∧ studyNs one 0 + 500 < (((0 : Nat) : Int) + 1) * 1000) ∧
    (let t : Nat := 1099511627776
     0 ≤ studyNs sourceD t ∧ (t : Int) * 1000 ≤ studyNs sourceD t + 500 ∧ studyNs sourceD t + 500 < ((t : Int) + 1) * 1000) ∧
    ((elapsedNs sourceB 899998999800).natAbs / 1000 * sourceB.driftUncPpb ≤ 1 * 1000000000 ∧
      1 * 1000000000 < (elapsedNs sourceB 899998999800).natAbs / 1000 * sourceB.driftUncPpb + 1000000000) := by
  decide +kernel

theorem witness_BackwardUndoesForward :
    let es := [entry 1 0 .closed .unknown, entry 2 1 .opened .unknown, entry 3 0 .opened .closed]
    ∀ (i : Nat) (h : i < es.length),
      (Image.rollForward [] (es.take i)).at es[i].device = ⟨es[i].priorState, es[i].priorMark⟩ := by
  intro es i h
  match i, h with
  | 0, _ => rfl
  | 1, _ => rfl
  | 2, _ => rfl

theorem witness_DelayAndTimerLoad : 0 < 1 ∧ 268431360 ≤ 268431360 ∧ 268431360 < 268431361 := by decide

/-! ### Witnesses and steps: sources -/

/-- A parameter block of tick 0, which is clamped to 1, at the staging area's start. -/
def params0 : List Byte := leBytes 4 0 ++ leBytes 6 9 ++ leBytes 6 1000 ++ zeros 8 ++ leBytes 4 2 ++ zeros 4

theorem witness_DefineAndAnchorWriteParameters :
    let s := given (staged station params0) (desc 0x10 255 0 [])
    let r := given (staged (sourced station .streaming) params0) (desc 0x14 3 0 [])
    let q := given (staged (sourced station .defined) params0) (desc 0x14 3 0 [])
    (NamesSource s 0 (desc 0x10 255 0 []) ∧ Taken s 0 .defineSource 0 (desc 0x10 255 0 []) ∧
      (s.source 255).state ≠ .streaming) ∧
    (NamesSource r 0 (desc 0x14 3 0 []) ∧ Taken r 0 .anchorSource 0 (desc 0x14 3 0 []) ∧ (r.source 3).state = .streaming) ∧
    (NamesSource q 0 (desc 0x14 3 0 []) ∧ Taken q 0 .anchorSource 0 (desc 0x14 3 0 []) ∧ (q.source 3).state = .defined) := by
  unfold NamesSource Taken; decide +kernel

theorem test_defineSource :
    gives (exec (.defineSource 0) (given (staged station params0) (desc 0x10 3 0 []))) (fun t =>
      t.source 3 == { state := .defined, owner := some 0, params := ⟨1, 9, 1000, 0, 0, 2, 0⟩ } &&
      t.bytesAt (Config.completionEntry 0 0) 9 == [7, 0, 0x10, 1, 0, 0, 0, 0, 1]) = true := by decide +kernel

theorem test_anchorSource :
    gives (exec (.anchorSource 0) (given (staged (sourced station .streaming) params0) (desc 0x14 3 0 []))) (fun t =>
      (t.source 3).state == .streaming && (t.source 3).params.anchorTime == 1000) = true := by decide +kernel

theorem witness_ClaimReleaseAndEnd :
    let s := given (station.setSource 3 { state := .ended }) (desc 0x11 3 0 [])
    Taken s 0 .claimSource 0 (desc 0x11 3 0 []) ∧ NamesSource s 0 (desc 0x11 3 0 []) ∧ (s.source 3).state ≠ .undefined := by
  unfold NamesSource Taken; decide +kernel

theorem witness_ClaimReleaseAndEnd_again :
    let s := given (sourced station .defined) (desc 0x11 3 0 [])
    Taken s 0 .claimSource 0 (desc 0x11 3 0 []) ∧ NamesSource s 0 (desc 0x11 3 0 []) ∧
      (s.source 3).state ≠ .undefined ∧ (s.source 3).owner = some 0 := by
  unfold NamesSource Taken; decide +kernel

theorem test_claimSource :
    gives (exec (.claimSource 0) (given (station.setSource 3 { state := .ended }) (desc 0x11 3 0 []))) (fun t =>
      (t.source 3).owner == some 0 && (t.source 3).state == .ended) = true := by decide +kernel

theorem witness_ClaimReleaseAndEnd_release :
    let s := given (sourced station .streaming) (desc 0x12 3 0 [])
    Canonical s ∧ Taken s 0 .releaseSource 0 (desc 0x12 3 0 []) ∧ NamesSource s 0 (desc 0x12 3 0 []) ∧
      (s.source 3).state ≠ .undefined := by
  unfold Canonical NamesSource Taken; decide +kernel

theorem test_releaseSource :
    gives (exec (.releaseSource 0) (given (sourced station .streaming) (desc 0x12 3 0 []))) (fun t =>
      (t.source 3).owner == none && (t.source 3).state == .streaming) = true := by decide +kernel

theorem witness_ClaimReleaseAndEnd_end :
    let s := given (sourced station .streaming) (desc 0x13 3 0 [])
    Taken s 0 .endSource 0 (desc 0x13 3 0 []) ∧ NamesSource s 0 (desc 0x13 3 0 []) ∧ (s.source 3).state ≠ .undefined := by
  unfold NamesSource Taken; decide +kernel

/-- The only STREAMING source ends, the horizon is unbounded, and the window's record is being written (R42). -/
theorem test_endSource :
    let s := { sourced station .streaming with merge := { station.merge with window := [reported 40000 9] } }
    gives (exec (.endSource 0) (given s (desc 0x13 3 0 []))) (fun t =>
      (t.source 3).state == .ended && (t.merge.writing.map Entry.time) == some 40000) = true := by decide +kernel

/-! ### Witnesses and steps: readouts -/

/-- A late record at time `n`. -/
def lateAt (n : Nat) : LateRecord := ⟨n, 5, 1, .opened, none, 3, n, {}, ⟨30000, 5, 3, 1⟩⟩

/-- `recorded` with two late records. -/
def behind : State := { recorded with merge := { recorded.merge with late := [lateAt 1, lateAt 2] } }

theorem witness_ReadoutsCopyAndEnd :
    let l := desc 0x07 0 0 [1, 0, 1]
    let e := desc 0x08 0 0 [2, 0, 0, 0, 4, 0]
    let d := desc 0x08 0 0 [3, 0, 0, 0, 4, 0]
    (reservationHeld (given behind l) = false ∧ Taken (given behind l) 0 .readLate 0 l ∧
      min (min (l.field 8 2) 2048) (given behind l).merge.late.length ≠ 0) ∧
    (reservationHeld (given recorded l) = false ∧ Taken (given recorded l) 0 .readLate 0 l ∧
      min (min (l.field 8 2) 2048) (given recorded l).merge.late.length = 0) ∧
    (reservationHeld (given recorded e) = false ∧ Taken (given recorded e) 0 .readEntries 0 e ∧
      (given recorded e).journal.state ≠ .unformatted ∧ min (min (e.field 12 2) 2048) (3 - e.position) ≠ 0) ∧
    (Taken (given recorded d) 0 .readEntries 0 d ∧ (given recorded d).journal.committed - d.position = 0) ∧
    (reservationHeld (given State.reset e) = false ∧ Taken (given State.reset e) 0 .readEntries 0 e ∧
      (given State.reset e).journal.state = .unformatted) := by
  unfold Taken; decide +kernel

theorem witness_ReadoutsCopyAndEnd_noLateInProgress :
    ∀ (q : PortId) (r : Readout), behind.readouts[q] = some r → r.isLate = false := by
  intro q r h
  have : ∀ q : PortId, behind.readouts[q] = none := by decide +kernel
  rw [this q] at h
  cases h

theorem witness_ReadoutsCopyAndEnd_query :
    Taken (given station (desc 0x15 256 0 [])) 0 .querySource 0 (desc 0x15 256 0 []) ∧ 255 < (desc 0x15 256 0 []).target ∧
    Taken (given station (desc 0x15 255 0 [])) 0 .querySource 0 (desc 0x15 255 0 []) ∧ (desc 0x15 255 0 []).target ≤ 255 := by
  unfold Taken; decide +kernel

theorem test_readLate :
    gives (exec (.readLate 0) (given behind (desc 0x07 0 0 [1, 0, 1]))) (fun t =>
      t.readouts[(0 : PortId)] == some ⟨0, true, 0, 1, 0, true, false⟩ && t.arbiter.waiting.length == 1) = true := by
  decide +kernel

theorem test_readEntries :
    gives (exec (.readEntries 0) (given recorded (desc 0x08 0 0 [2, 0, 0, 0, 4, 0]))) (fun t =>
      t.readouts[(0 : PortId)] == some ⟨0, false, 2, 1, 0, false, true⟩) = true := by decide +kernel

/-- State and owner in the first value, and the record's first bytes (R152, R175). -/
theorem test_querySource :
    gives (exec (.querySource 0) (given (sourced station .streaming) (desc 0x15 3 0 []))) (fun t =>
      t.bytesAt (Config.readoutEntry 0 0) 3 == [2, 0, 0] &&
      t.bytesAt (Config.completionEntry 0 0) 10 == [7, 0, 0x15, 0, 0, 0, 0, 0, 2, 0]) = true := by decide +kernel

/-- `behind` with a READ_LATE or READ_ENTRIES of `n` records whose last read holds the channel. -/
def reading (isLate : Bool) (start n : Nat) : State :=
  let s := given behind (desc (if isLate then 0x07 else 0x08) 0 0 [])
  granted { s with readouts := s.readouts.set 0 (some ⟨0, isLate, start, n, 0, isLate, false⟩) } (.readout 0) .d .readout

theorem witness_ReadoutsCopyAndEnd_end :
    let l := reading true 0 2
    let e := reading false 2 1
    (WithinCapacity l ∧ channelEnds l (.readout 0) .readout = true ∧
      l.readouts[(0 : PortId)] = some ⟨0, true, 0, 2, 0, true, false⟩ ∧
      findCommand l 0 = some (0, ⟨0, desc 0x07 0 0 [], false⟩) ∧ 2 ≤ l.merge.late.length) ∧
    (WithinCapacity e ∧ channelEnds e (.readout 0) .readout = true ∧
      e.readouts[(0 : PortId)] = some ⟨0, false, 2, 1, 0, false, false⟩ ∧
      findCommand e 0 = some (0, ⟨0, desc 0x08 0 0 [], false⟩) ∧ 2 + 1 ≤ e.dram.journal.length) := by
  unfold WithinCapacity; decide +kernel

/-- The time and the device of entry 2 stand in the readout area (R175: 5 bytes, 2 bytes, 2 bytes). -/
theorem test_readoutCopyEnd :
    gives (exec (.readoutCopyEnd 0) (reading false 2 1)) (fun t =>
      t.bytesAt (Config.readoutEntry 0 0) 10 == [0x30, 0x75, 0, 0, 0, 5, 0, 0, 0, 8] &&
      t.readouts[(0 : PortId)] == none && t.ports[(0 : PortId)].produced == 1) = true := by decide +kernel

/-! ### Witnesses and steps: FORMAT and the catalogue -/

/-- FORMAT of 0 devices, interval 5,000, slack 60,000,001: every operand is clamped. -/
def formatDesc : Descriptor := desc 0x01 0 0 (leBytes 2 0 ++ leBytes 2 5000 ++ leBytes 4 60000001)

/-- `s` with a reserving command of number 0 at work. -/
def reserving (s : State) (kind : Nat) (w : ReservedWork) : State :=
  let s := given s (desc kind 0 0 [])
  { s with journal := { s.journal with reserved := some ⟨0, false, w⟩ } }

/-- `recorded` with the record of device 2 being written as an entry, and its write on the channel. -/
def committing (path : ArrivalPath) : State :=
  granted { recorded with
    journal := { recorded.journal with committed := 1023 }
    dram := { recorded.dram with journal := List.replicate 1023 (entry 1 0 .opened .opened) }
    merge := { recorded.merge with
      window := [reported 40000 9], writing := some (entry 40000 2 .closed .opened), path := path } }
    .commitWriter .c .commitWrite

/-- `s` with a command in flight at port 1 beside. -/
def beside (s : State) (c : InFlight) : State := s.setPort 1 { s.ports[1] with inFlight := [c] }

/-- Each command that the reservation holds back, with a FORMAT at port 1; each reserving command behind a batch started
there. -/
theorem witness_ReservationHoldsJournalWork :
    (∀ x ∈ [(0x03, CommandKind.loadBatch), (0x04, .flush), (0x20, .openView), (0x21, .seek), (0x22, .returnMark),
        (0x25, .resume), (0x26, .exchange), (0x08, .readEntries), (0x07, .readLate)],
      let s := beside (given watching (desc x.1 2 0 [])) ⟨1, formatDesc, false⟩
      Taken s 0 x.2 0 (desc x.1 2 0 []) ∧ reservationHeld s = true) ∧
    (∀ x ∈ [(0x01, CommandKind.format), (0x02, .loadCatalogue), (0x05, .seal), (0x06, .truncate)],
      let s := beside (given watching (desc x.1 0 0 [])) ⟨1, desc 0x03 3 0 [], true⟩
      Taken s 0 x.2 0 (desc x.1 0 0 []) ∧ mayReserve s 0 = false) := by
  unfold Taken; decide +kernel

/-- No live view, with no entry being written and with one; a live view; a FORMAT that waited for a write. -/
theorem witness_FormatEmptiesJournal :
    (∀ x ∈ [recorded, committing .idle], Taken (given x formatDesc) 0 .format 0 formatDesc ∧
      mayReserve (given x formatDesc) 0 = true ∧ ∀ v : Slot, (given x formatDesc).views[v].state = .free) ∧
    (given recorded formatDesc).merge.writing = none ∧ (given (committing .idle) formatDesc).merge.writing ≠ none ∧
    (Taken (given watching formatDesc) 0 .format 0 formatDesc ∧ mayReserve (given watching formatDesc) 0 = true ∧
      ∃ v : Slot, (given watching formatDesc).views[v].state ≠ .free) ∧
    (reserving recorded 0x01 (.formatCommit 1 4096 60000000)).journal.reserved =
      some ⟨0, false, .formatCommit 1 4096 60000000⟩ := by
  unfold Taken; decide +kernel

/-- A FORMAT that starts while an entry is being written waits, and makes its changes at the write's end (R51, R56). -/
theorem test_format_waits :
    gives (exec (.format 0) (given (committing .idle) formatDesc)) (fun t =>
      t.journal.reserved == some ⟨0, true, .formatCommit 1 4096 60000000⟩ && t.merge.window.length == 1) = true ∧
    gives (exec .commitWriteEnd (reserving (committing .idle) 0x01 (.formatCommit 1 4096 60000000))) (fun u =>
      u.journal == ⟨.rebuilding, 0, 60000000, 1, some ⟨0, false, .formatCatalogue 4096⟩⟩ && u.merge.window == []) = true := by
  decide +kernel

theorem test_format :
    gives (exec (.format 0) (given behind formatDesc)) (fun t =>
      t.journal == ⟨.rebuilding, 0, 60000000, 1, some ⟨0, true, .formatCatalogue 4096⟩⟩ && t.merge.late == [] &&
      t.merge.settled == none && t.arbiter.waiting.length == 1) = true := by decide +kernel

/-- Two catalogue entries: device 2 at station 31, CLOSED; device 4, which the catalogue does not have. -/
def catalogueLines : List Byte :=
  leBytes 2 2 ++ leBytes 2 31 ++ [1, 1, 0, 0] ++ leBytes 2 4 ++ leBytes 2 31 ++ [1, 1, 0, 0]

/-- LOAD_CATALOGUE of `n` entries from staging position `pos`. -/
def loadDesc (pos n : Nat) : Descriptor := desc 0x02 0 0 (leBytes 4 pos ++ leBytes 2 n)

theorem witness_CatalogueLoadAndWriteEnd :
    (Taken (given station (loadDesc 0 2)) 0 .loadCatalogue 0 (loadDesc 0 2) ∧
      mayReserve (given station (loadDesc 0 2)) 0 = true ∧
      (given station (loadDesc 0 2)).journal.state = .building ∧ (given station (loadDesc 0 2)).journal.committed = 0 ∧
      (given station (loadDesc 0 2)).merge.window = [] ∧ (∀ v : Slot, (given station (loadDesc 0 2)).views[v].state = .free) ∧
      min (min ((loadDesc 0 2).field 12 2) 4096) ((512000 - 8 * (loadDesc 0 2).position) / 8) = 2) ∧
    (Taken (given station (loadDesc 64000 9)) 0 .loadCatalogue 0 (loadDesc 64000 9) ∧
      min (min ((loadDesc 64000 9).field 12 2) 4096) ((512000 - 8 * (loadDesc 64000 9).position) / 8) = 0 ∧
      min (min ((loadDesc 63999 9).field 12 2) 4096) ((512000 - 8 * (loadDesc 63999 9).position) / 8) = 1) ∧
    (Taken (given recorded (loadDesc 0 2)) 0 .loadCatalogue 0 (loadDesc 0 2) ∧
      mayReserve (given recorded (loadDesc 0 2)) 0 = true ∧ (given recorded (loadDesc 0 2)).journal.committed ≠ 0) := by
  unfold Taken; decide +kernel

theorem test_loadCatalogue :
    gives (exec (.loadCatalogue 0) (given (staged station catalogueLines) (loadDesc 0 2))) (fun t =>
      t.catalogueEntry 2 == ⟨31, .disconnector, .closed⟩ && t.merge.image.at 2 == ⟨.closed, false⟩ &&
      t.catalogueEntry 4 == .unlisted && t.arbiter.waiting == [⟨.catalogueWriter, .d, .catalogueWrite, true⟩]) = true := by
  decide +kernel

theorem witness_CatalogueLoadAndWriteEnd_end :
    let c := granted (reserving station 0x02 (.catalogueLoad ⟨0, 2, 2, 1, 1, 0⟩)) .catalogueWriter .d .catalogueWrite
    let f := granted (reserving station 0x01 (.formatCatalogue 4096)) .catalogueWriter .d .catalogueWrite
    let h := { f with directory := { f.directory with due := some 1024 } }
    (channelEnds c .catalogueWriter .catalogueWrite = true ∧
      c.journal.reserved = some ⟨0, false, .catalogueLoad ⟨0, 2, 2, 1, 1, 0⟩⟩) ∧
    (channelEnds f .catalogueWriter .catalogueWrite = true ∧ checkpointHold f = false ∧ Canonical f ∧
      f.journal.reserved = some ⟨0, false, .formatCatalogue 4096⟩) ∧
    (channelEnds h .catalogueWriter .catalogueWrite = true ∧ checkpointHold h = true ∧
      h.journal.reserved = some ⟨0, false, .formatCatalogue 4096⟩) := by
  unfold Canonical; decide +kernel

theorem test_catalogueWriteEnd :
    gives (exec .catalogueWriteEnd
      (granted (reserving station 0x01 (.formatCatalogue 4096)) .catalogueWriter .d .catalogueWrite)) (fun t =>
      t.slot 0 == { state := .writing } && t.directory.interval == 4096 && t.directory.write == some ⟨0, 0, false⟩ &&
      t.arbiter.waiting.length == 1 && t.arbiter.backlog.length == 15) = true := by decide +kernel

/-! ### Witnesses and steps: batches, arrivals, commits -/

/-- A batch header: source and record count. -/
def header (src n : Nat) : List Byte := leBytes 2 src ++ leBytes 2 n ++ zeros 12

/-- A raw record (R175): sequence number, raw time, device, state, origin. -/
def raw (seq time device st origin : Nat) : List Byte :=
  leBytes 4 seq ++ leBytes 6 time ++ leBytes 2 device ++ [byte st, byte origin, 0, 0]

/-- LOAD_BATCH of source 3 from staging position `pos`. -/
def batchDesc (target pos : Nat) : Descriptor := desc 0x03 target 0 (leBytes 4 pos)

/-- `station` with a batch staged, and LOAD_BATCH of source 3 in flight. -/
def loading (src : Source) (n : Nat) : State :=
  given ((staged station (header 3 n)).setSource 3 src) (batchDesc 3 0)

theorem witness_BatchesAligned :
    let ok := loading { state := .streaming, owner := some 0 } 300
    let z := loading { state := .defined, owner := some 0 } 0
    let u := loading { state := .defined, owner := some 1 } 1
    let n := loading { state := .streaming, owner := none } 1
    let e := loading { state := .ended, owner := some 0 } 1
    (∀ s ∈ [ok, z, u, n, e], Taken s 0 .loadBatch 0 (batchDesc 3 0) ∧ reservationHeld s = false ∧
      s.journal.state = .building ∧ readField s.ring.replica (stagingAddr 0 0) 2 = 3) ∧
    (ok.source 3).owner = some 0 ∧ (ok.source 3).state = .streaming ∧
    min (min (readField ok.ring.replica (stagingAddr 0 0 + 2) 2) 256) ((512000 - 16) / 16) = 256 ∧
    (z.source 3).state = .defined ∧ readField z.ring.replica (stagingAddr 0 0 + 2) 2 = 0 ∧
    (u.source 3).owner = some 1 ∧ (n.source 3).owner = none ∧ (e.source 3).state = .ended := by
  unfold Taken; decide +kernel

/-- The boundaries of BAD_TARGET, and a journal that takes no batch. -/
theorem witness_BatchesAligned_badTarget :
    let far := given station (batchDesc 3 63999)
    let above := given station (batchDesc 256 0)
    let other := given (staged station (header 4 1)) (batchDesc 3 0)
    let z := given State.reset (batchDesc 3 0)
    (Taken far 0 .loadBatch 0 (batchDesc 3 63999) ∧ 511984 < 8 * (batchDesc 3 63999).position ∧
      8 * (batchDesc 3 63998).position ≤ 511984) ∧
    (Taken above 0 .loadBatch 0 (batchDesc 256 0) ∧ 255 < (batchDesc 256 0).target) ∧
    (Taken other 0 .loadBatch 0 (batchDesc 3 0) ∧ readField other.ring.replica (stagingAddr 0 0) 2 ≠ 3) ∧
    (Taken z 0 .loadBatch 0 (batchDesc 3 0) ∧ reservationHeld z = false ∧ z.journal.state ≠ .building) := by
  unfold Taken; decide +kernel

theorem test_loadBatch :
    gives (exec (.loadBatch 0) (loading { state := .defined, owner := some 0 } 300)) (fun t =>
      t.batches == [⟨0, 0, 3, 0x3010, 256, true, 0, 0, 0, false⟩] && (t.source 3).state == .defined) = true := by
  decide +kernel

/-- A batch of one raw record in the Alignment Unit. -/
def aligning (r : List Byte) (count : Nat) : State :=
  let s := staged station (header 3 count ++ r)
  let s := s.setSource 3 { state := .defined, owner := some 0, params := { tickNs := 1000, baseUnc := 2 }, nextSeq := 5 }
  { given s (batchDesc 3 0) with batches := [⟨0, 0, 3, 0x3010, count, false, 0, 0, 0, false⟩] }

theorem witness_BatchesAligned_record :
    let b : Batch := ⟨0, 0, 3, 0x3010, 1, false, 0, 0, 0, false⟩
    let c : Batch := ⟨0, 0, 3, 0x3010, 2, false, 0, 0, 0, false⟩
    (findBatch (aligning (raw 7 50000 4 1 0) 1) 0 = some b ∧
      findCommand (aligning (raw 7 50000 4 1 0) 1) 0 = some (0, ⟨0, batchDesc 3 0, false⟩) ∧
      (aligning (raw 7 50000 4 1 0) 1).journal.deviceCount ≤ (readRaw (aligning (raw 7 50000 4 1 0) 1).ring.replica 0x3010).device) ∧
    (findBatch (aligning (raw 7 50000 4 1 0) 2) 0 = some c ∧ c.taken + 1 < c.count) ∧
    (findBatch (aligning (raw 7 50000 3 1 0) 1) 0 = some b ∧ b.handed = false ∧ b.taken < b.count ∧
      (readRaw (aligning (raw 7 50000 3 1 0) 1).ring.replica 0x3010).device < 4) := by decide +kernel

/-- The record becomes a window record; GAP, and two numbers missing; the batch completes. -/
theorem test_alignRecord :
    gives (exec (.alignRecord 0) (aligning (raw 7 50000 3 1 2) 1)) (fun t =>
      t.merge.window == [⟨3, .closed, false, false,
        ⟨3, 7, 50000, 2, { gap := true }, some .autoReclose, 1⟩, []⟩] &&
      (t.source 3).counters.missing == 2 && (t.source 3).nextSeq == 8 && (t.source 3).maxTime == some 50000 &&
      t.batches == [] && t.ports[(0 : PortId)].produced == 1) = true := by decide +kernel

theorem test_alignRecord_rejects :
    gives (exec (.alignRecord 0) (aligning (raw 4 50000 4 1 2) 1)) (fun t =>
      t.merge.window == [] && (t.source 3).counters.rejected == 1 && (t.source 3).state == .streaming &&
      (t.source 3).nextSeq == 5) = true := by decide +kernel

/-- An arrival of source 9, at time 9,999,400,000, of a device that no record has. -/
def fresh : Arrival := arrival 9 1 77 .travel 9999400000 174

/-- A duplicate, a late one with room and without, one that folds, one that is new. -/
theorem witness_ArrivalDisposedOf :
    let dup := arrival 3 500 812 .closed 9999400000 174
    let late := arrival 3 501 77 .travel 9998400000 174
    let fold := { arrival 3 502 812 .closed 9999400180 174 with witness := ⟨9, 502, 9999400180, 174, {}, none, 3⟩ }
    (∃ r ∈ merging2.merge.window, ∃ x ∈ r.witnesses, x.src = dup.witness.src ∧ x.seq = dup.witness.seq) ∧
    (¬ (∃ r ∈ merging2.merge.window, ∃ x ∈ r.witnesses, x.src = late.witness.src ∧ x.seq = late.witness.seq) ∧
      merging2.merge.settled = some ⟨9998500000, 30, 5, 1200⟩ ∧
      late.witness.key.le ⟨9998500000, 30, 5, 1200⟩ = true ∧ merging2.merge.late.length < 4096 ∧
      (merging2.source 3).owner = some 0 ∧ reports merging2 0 = true) ∧
    (¬ (∃ r ∈ merging2.merge.window, ∃ x ∈ r.witnesses, x.src = fold.witness.src ∧ x.seq = fold.witness.seq) ∧
      fold.witness.key.le ⟨9998500000, 30, 5, 1200⟩ = false ∧ (foldTarget fold merging2.merge.window).isSome = true) ∧
    (¬ (∃ r ∈ merging2.merge.window, ∃ x ∈ r.witnesses, x.src = fresh.witness.src ∧ x.seq = fresh.witness.seq) ∧
      fresh.witness.key.le ⟨9998500000, 30, 5, 1200⟩ = false ∧
      (∀ r ∈ merging2.merge.window, canTake { fresh with witness := { fresh.witness with order := 3 } } r = false) ∧
      merging2.merge.window.length < 1024) ∧
    4096 ≤ (List.replicate 4096 (lateAt 1)).length := by decide +kernel

/-- `s` with a batch of source 9 whose arrival has been handed over, `taken` of its two records being taken. -/
def batched (s : State) (taken : Nat) : State :=
  { given s (desc 0x03 9 0 []) with batches := [⟨0, 0, 9, 0x3010, 2, true, taken, 0, 0, true⟩] }

/-- The batch of such an arrival goes on, or this was its last record; the late list is full. -/
theorem witness_ArrivalDisposedOf_batch :
    (∀ k ∈ [1, 2], (batched merging2 k).merge = merging2.merge ∧
      findBatch (batched merging2 k) 0 = some ⟨0, 0, 9, 0x3010, 2, true, k, 0, 0, true⟩ ∧
      findCommand (batched merging2 k) 0 = some (0, ⟨0, desc 0x03 9 0 [], false⟩)) ∧
    findBatch merging2 0 = none ∧ fresh.batch = 0 := by decide +kernel

/-- A late arrival dropped from a full list goes into its batch's late count, and ends LOAD_BATCH as its last record. -/
theorem test_dropped_arrival_ends_batch :
    let late := arrival 3 501 77 .travel 9998400000 174
    let full := fun k => let s := batched merging2 k
      { s with merge := { s.merge with late := List.replicate 4096 (lateAt 1) } }
    (takeArrival (full 1) late).batches = [⟨0, 0, 9, 0x3010, 2, true, 1, 0, 1, false⟩] ∧
      (takeArrival (full 2) late).batches = [] ∧
      (takeArrival (full 2) late).bytesAt (Config.completionEntry 0 0 + 3) 22 =
        [1, 0, 0, 0, 0, 2, 0, 0, 0, 0, 0, 0, 0, 0, 0, 0, 0, 0, 0, 0, 0, 1] := by decide +kernel

/-- A record of device 812, CLOSED, with the witnesses of sources 11 to 10 + n, best first. -/
def seenBy (time n : Nat) : WindowRecord :=
  ⟨812, .closed, false, false, ⟨11, 1, time, 5, {}, none, 1⟩,
    (List.range (n - 1)).map fun i => ⟨12 + i, 1, time, 5, {}, none, 2 + i⟩⟩

/-- A record of three witnesses, which takes a fourth, and one of four, which drops the fifth; two records equally near, of
which the lower-keyed takes the arrival. -/
theorem witness_ArrivalDisposedOf_joins :
    let a := { arrival 3 500 812 .closed 9999400100 174 with witness := ⟨3, 500, 9999400100, 174, {}, none, 1⟩ }
    (∀ n ∈ [3, 4], foldTarget a [seenBy 9999400000 n] = some (seenBy 9999400000 n)) ∧
    foldTarget a [seenBy 9999400050 1, seenBy 9999400150 1] = some (seenBy 9999400050 1) ∧
    (joinWitness (seenBy 9999400000 3) a.witness).2 = none ∧
    (joinWitness (seenBy 9999400000 4) a.witness).2 = some a.witness := by decide +kernel

/-- `merging` with a full window, its lowest record at 9,999,000,001, and a batch's command in flight. -/
def crammed : State :=
  let s := given { merging with merge := { merging.merge with
    window := (List.range 1024).map fun i => reported (9999000001 + i) i } } (desc 0x03 9 0 [])
  { s with batches := [⟨0, 0, 9, 0x3010, 1, false, 1, 0, 0, true⟩] }

/-- `s` with a full journal, of which nothing but the count is read here. -/
def brimming (s : State) : State := { s with journal := { s.journal with committed := 4194304 } }

/-- `s` with a checkpoint due. -/
def holding (s : State) : State := { s with directory := { s.directory with due := some 1024 } }

/-- A full window that no record of which can take the arrival: with a full journal, behind a hold, and with neither. -/
theorem witness_ArrivalDisposedOf_full :
    (∀ r ∈ crammed.merge.window, canTake { fresh with witness := { fresh.witness with order := 1 } } r = false) ∧
    (∀ r ∈ crammed.merge.window, ∀ x ∈ r.witnesses, ¬ (x.src = fresh.witness.src ∧ x.seq = fresh.witness.seq)) ∧
    1024 ≤ crammed.merge.window.length ∧ crammed.merge.window.head? = some (reported 9999000001 0) ∧
    (4194304 ≤ (brimming crammed).journal.committed ∧
      findBatch (brimming crammed) fresh.batch = some ⟨0, 0, 9, 0x3010, 1, false, 1, 0, 0, true⟩ ∧
      findCommand (brimming crammed) 0 = some (0, ⟨0, desc 0x03 9 0 [], false⟩)) ∧
    ((holding crammed).journal.committed < 4194304 ∧ (holding crammed).directory.due ≠ none) ∧
    (crammed.journal.committed < 4194304 ∧ crammed.directory.write = none ∧ crammed.directory.due = none ∧
      crammed.journal.state ≠ .rebuilding) := by decide +kernel

/-- The lowest record's commit is forced, FORCED is set in the entry, and the arrival waits for it (R46). -/
theorem test_merge_forces :
    let t := takeArrival crammed fresh
    (t.merge.writing.map fun e => (e.time, e.forced)) = some (9999000001, true) ∧ (t.source 3).counters.forced = 1 ∧
      t.merge.window.length = 1024 := by decide +kernel

/-- The horizon unbounded, and over two sources. -/
theorem witness_CommitRunInKeyOrder :
    (Canonical station ∧ horizon station = .unbounded) ∧ (Canonical merging ∧ horizon merging = .upTo 9999000000) := by
  unfold Canonical; decide +kernel

/-- `recorded` with one record in the window, and a run in progress. -/
def running (h : Option Horizon) : State :=
  { recorded with merge := { recorded.merge with window := [reported 40000 9], run := h } }

/-- An entry being written; an empty window; a hold of each kind; a record that nothing wants; one at the horizon, one
behind an unbounded horizon, one at a flush's key, one of a SEAL. -/
theorem witness_CommitRunInKeyOrder_run :
    (committing .idle).merge.writing ≠ none ∧ (recorded.merge.writing = none ∧ recorded.merge.window = []) ∧
    (∀ h ∈ [some .unbounded, some (.upTo 40000), some (.upTo 39999), none],
      (running h).merge.writing = none ∧ (running h).merge.window = reported 40000 9 :: [] ∧
      (running h).directory.write = none ∧ (running h).directory.due = none ∧
      (running h).journal.committed ≠ 4194304 ∧ (running h).journal.state ≠ .rebuilding ∧
      (running h).merge.flushes = [] ∧ (running h).journal.reserved = none) ∧
    ((reported 40000 9).first.time : Int) ≤ 40000 ∧ ¬ ((reported 40000 9).first.time : Int) ≤ 39999 ∧
    (reported 40000 9).key.le ⟨40000, 5, 3, 9⟩ = true ∧ (holding (running none)).directory.due ≠ none ∧
    (brimming (running none)).journal.committed = 4194304 ∧
    (reserving (running none) 0x05 (.sealing 0)).journal.reserved = some ⟨0, false, .sealing 0⟩ := by decide +kernel

/-- REPEAT, the ambiguity and the prior mark of the entry made (R43). -/
theorem test_commit_run :
    let s := { running (some .unbounded) with merge := { (running (some .unbounded)).merge with
      window := [{ reported 40000 9 with ambiguous := true }], image := [(2, ⟨.closed, true⟩)] } }
    ((pumpCommits s).merge.writing.map fun e => (e.isRepeat, e.priorMark, e.ambiguous, e.witnesses)) =
      some (true, true, true, [(3, 9)]) := by decide +kernel

/-- `s` with one arrival handed over. -/
def handing (s : State) (a : Arrival) : State := { s with merge := { s.merge with handed := [a] } }

/-- `s` with one arrival being resumed, paused or not. -/
def resuming (s : State) (a : Arrival) (paused : Bool) : State :=
  { s with merge := { s.merge with resuming := [a], paused := paused } }

/-- Handed over with no entry being written; with one, its key at or below the entry's, one that the record could take, one
that contradicts it, one that is known, and one that need not wait. -/
theorem witness_MergeTakesArrivals :
    let low := arrival 4 1 0 .closed 35000 5
    let same := arrival 4 1 2 .closed 40001 5
    let against := arrival 4 1 2 .opened 40001 5
    let late := arrival 4 1 0 .closed 10000 5
    let free := arrival 4 1 0 .closed 90000 5
    let r := reported 40000 9
    let e := entry 40000 2 .closed .opened
    (∀ a ∈ [low, same, against, late, free], ∀ s ∈ [handing recorded a, handing (committing .idle) a],
      s.merge.path = .idle ∧ s.merge.resuming = [] ∧ s.merge.handed = [a]) ∧
    recorded.merge.writing = none ∧ (committing .idle).merge.writing = some e ∧
    (committing .idle).merge.window = r :: [] ∧ (committing .idle).merge.settled = some ⟨30000, 5, 3, 1⟩ ∧
    late.witness.key.le ⟨30000, 5, 3, 1⟩ = true ∧
    (∀ a ∈ [low, same, against, free], a.witness.key.le ⟨30000, 5, 3, 1⟩ = false ∧
      ∀ x ∈ r.witnesses, ¬ (x.src = a.witness.src ∧ x.seq = a.witness.seq)) ∧
    low.witness.key.le e.key = true ∧ canTake same r = true ∧ contradicts against r = true ∧
    (free.witness.key.le e.key = false ∧ canTake free r = false ∧ contradicts free r = false) := by decide +kernel

/-- An open path; nothing to take; a resumed arrival behind the run's write, a paused one, one that is placed under a hold
and one with none left, and one whose test opens a path. -/
theorem witness_MergeTakesArrivals_resumed :
    let a := arrival 4 1 0 .closed 90000 5
    let late := arrival 4 1 0 .closed 10000 5
    (committing (.appending a)).merge.path ≠ .idle ∧
    (recorded.merge.path = .idle ∧ recorded.merge.handed = [] ∧ recorded.merge.resuming = []) ∧
    (∀ x ∈ [resuming (committing .idle) a false, resuming (holding recorded) a true, resuming (holding recorded) a false,
        resuming recorded a false],
      x.merge.path = .idle ∧ x.merge.resuming = a :: [] ∧ x.merge.run = none) ∧
    ((resuming recorded late false).merge.path = .idle ∧ (resuming recorded late false).merge.resuming = late :: []) ∧
    (committing .idle).merge.writing ≠ none ∧ (resuming (holding recorded) a true).merge.paused = true ∧
    (∀ x ∈ [resuming (holding recorded) a false, resuming recorded a false, resuming recorded late false],
      x.merge.writing = none ∧ x.merge.paused = false) ∧
    (holding recorded).directory.due ≠ none ∧
    (isLate recorded late.witness.key = true ∧ isLate recorded a.witness.key = false) ∧
    ((mergeProceeds (handing (committing .idle) (arrival 4 1 0 .closed 35000 5))).merge.path = .idle ∧
      (mergeProceeds (handing (committing .idle) (arrival 4 1 0 .closed 35000 5))).merge.handed ≠ []) := by decide +kernel

/-- An arrival is placed while an entry is being written (R174); one below the entry's key waits (log entry 8). -/
theorem test_merge_takes_during_write :
    (journalProceeds (handing (committing .idle) (arrival 4 1 0 .closed 90000 5))).merge.window.length = 2 ∧
    (journalProceeds (handing (committing .idle) (arrival 4 1 0 .closed 35000 5))).merge.handed.length = 1 := by
  decide +kernel

/-- A late arrival whose append is on the channel, in a batch of `count`. -/
def appending (count : Nat) : State :=
  let s := aligning (raw 7 50000 3 1 2) count
  granted { s with
    batches := [⟨0, 0, 3, 0x3010, count, false, 1, 0, 0, true⟩]
    merge := { s.merge with path := .appending (arrival 3 7 3 .closed 50000 2), late := [lateAt 50000] } }
    .lateWriter .d .lateAppend

theorem witness_CommitAndAppendEnds_append :
    let a := arrival 3 7 3 .closed 50000 2
    (channelEnds (appending 2) .lateWriter .lateAppend = true ∧ (appending 2).merge.path = .appending a ∧
      findBatch (appending 2) a.batch = some ⟨0, 0, 3, 0x3010, 2, false, 1, 0, 0, true⟩) ∧
    (channelEnds (appending 1) .lateWriter .lateAppend = true ∧ (appending 1).merge.path = .appending a ∧
      findBatch (appending 1) a.batch = some ⟨0, 0, 3, 0x3010, 1, false, 1, 0, 0, true⟩ ∧
      findCommand (appending 1) 0 = some (0, ⟨0, batchDesc 3 0, false⟩)) := by decide +kernel

/-- The batch completes with 1 record, 0 rejected, 1 late. -/
theorem test_lateAppendEnd :
    gives (exec .lateAppendEnd (appending 1)) (fun t =>
      t.batches == [] && t.merge.path == .idle &&
      t.bytesAt (Config.completionEntry 0 0 + 3) 22 ==
        [0, 0, 0, 0, 0, 1, 0, 0, 0, 0, 0, 0, 0, 0, 0, 0, 0, 0, 0, 0, 0, 1]) = true := by decide +kernel

/-- Resumed under a new hold, an arrival is placed while the window has room, and waits again in a full one (R45). -/
theorem test_resumes_under_hold :
    let placed := journalProceeds (resuming (holding recorded) (arrival 4 1 0 .closed 90000 5) false)
    let waits := journalProceeds (resuming (holding crammed) fresh false)
    placed.merge.window.length = 1 ∧ placed.merge.waiting = [] ∧
      waits.merge.waiting = [fresh] ∧ waits.merge.resuming = [] ∧ waits.merge.writing = none := by decide +kernel

theorem witness_CommitAndAppendEnds :
    (∀ p ∈ [ArrivalPath.idle, .forcing (arrival 3 7 3 .closed 50000 2)],
      WithinCapacity (committing p) ∧ (committing p).merge.writing = some (entry 40000 2 .closed .opened) ∧
      channelEnds (committing p) .commitWriter .commitWrite = true) ∧ recorded.journal.reserved = none := by
  unfold WithinCapacity; decide +kernel

/-- The 1,024th entry: a checkpoint falls due (R44). -/
theorem test_commitWriteEnd :
    gives (exec .commitWriteEnd (committing .idle)) (fun t =>
      t.journal.committed == 1024 && t.merge.window == [] && t.merge.settled == some ⟨40000, 5, 3, 1⟩ &&
      t.merge.image.at 2 == ⟨.closed, false⟩ && lastChangeOf t 2 == some ⟨40000, 5, 1023⟩ &&
      t.directory.due == some 1024) = true := by decide +kernel

/-! ### Witnesses and steps: FLUSH, SEAL, TRUNCATE -/

/-- `recorded` with one record in the window. -/
def windowed : State := { recorded with merge := { recorded.merge with window := [reported 40000 9] } }

theorem witness_FlushAndSeal :
    (Taken (given windowed (desc 0x04 0 0 [])) 0 .flush 0 (desc 0x04 0 0 []) ∧
      reservationHeld (given windowed (desc 0x04 0 0 [])) = false ∧
      (given windowed (desc 0x04 0 0 [])).merge.window = [] ++ [reported 40000 9]) ∧
    (Taken (given recorded (desc 0x04 0 0 [])) 0 .flush 0 (desc 0x04 0 0 []) ∧
      (given recorded (desc 0x04 0 0 [])).journal.state = .building ∧
      (given recorded (desc 0x04 0 0 [])).merge.window = []) ∧
    (Taken (given State.reset (desc 0x04 0 0 [])) 0 .flush 0 (desc 0x04 0 0 []) ∧
      reservationHeld (given State.reset (desc 0x04 0 0 [])) = false ∧
      (given State.reset (desc 0x04 0 0 [])).journal.state ≠ .building) := by
  unfold Taken; decide +kernel

/-- A flush whose records are gone, one on a full journal, and one that goes on. -/
theorem witness_FlushAndSeal_flushEnds :
    let f : FlushOp := ⟨0, ⟨40000, 5, 3, 9⟩, 1⟩
    let s := fun (x : State) => given { x with merge := { x.merge with flushes := [f] } } (desc 0x04 0 0 [])
    (∀ x ∈ [recorded, brimming windowed], (s x).merge.flushes = [f] ∧
      findCommand (s x) f.serial = some (0, ⟨0, desc 0x04 0 0 [], false⟩)) ∧
    (∀ r ∈ (s recorded).merge.window, r.key.le f.noted = false) ∧
    ((∃ r ∈ (s (brimming windowed)).merge.window, r.key.le f.noted = true) ∧
      4194304 ≤ (s (brimming windowed)).journal.committed) ∧
    ((∃ r ∈ (s windowed).merge.window, r.key.le f.noted = true) ∧ (s windowed).journal.committed < 4194304) := by
  decide +kernel

theorem witness_FlushAndSeal_seal :
    let s := given (sourced recorded .defined) (desc 0x05 0 0 [])
    let z := given State.reset (desc 0x05 0 0 [])
    (Taken s 0 .seal 0 (desc 0x05 0 0 []) ∧ mayReserve s 0 = true ∧ s.journal.state = .building) ∧
    (Taken z 0 .seal 0 (desc 0x05 0 0 []) ∧ mayReserve z 0 = true ∧ z.journal.state ≠ .building) := by
  unfold Taken; decide +kernel

/-- SEAL's first step on an empty window, on a full journal with a record left, with an entry being written, and with a
record that the journal can take. -/
theorem witness_FlushAndSeal_sealEnds :
    (∀ x ∈ [recorded, brimming windowed, committing .idle, windowed],
      (reserving x 0x05 (.sealing 2)).journal.reserved = some ⟨0, false, .sealing 2⟩ ∧
      findCommand (reserving x 0x05 (.sealing 2)) 0 = some (0, ⟨0, desc 0x05 0 0 [], false⟩) ∧
      ∀ v : Slot, (reserving x 0x05 (.sealing 2)).views[v].step = none) ∧
    (recorded.merge.writing = none ∧ recorded.merge.window = []) ∧
    ((brimming windowed).merge.writing = none ∧ 4194304 ≤ (brimming windowed).journal.committed) ∧
    (committing .idle).merge.writing ≠ none ∧
    (windowed.merge.writing = none ∧ windowed.merge.window ≠ [] ∧ windowed.journal.committed < 4194304) := by
  decide +kernel

/-- On a full journal the record left is discarded and counted as rejected, and the result is JOURNAL_FULL (R55). -/
theorem test_seal_full :
    let t := checkSeal (reserving (brimming windowed) 0x05 (.sealing 2))
    t.merge.window = [] ∧ (t.source 3).counters.rejected = 1 ∧ t.journal.state = .sealed ∧
      t.byteAt (Config.completionEntry 0 0 + 3) = 8 := by decide +kernel

theorem test_flush :
    gives (exec (.flush 0) (given windowed (desc 0x04 0 0 []))) (fun t =>
      t.merge.flushes == [⟨0, ⟨40000, 5, 3, 9⟩, 0⟩] && (t.merge.writing.map Entry.time) == some 40000 &&
      t.arbiter.waiting == [⟨.commitWriter, .c, .commitWrite, true⟩]) = true := by decide +kernel

theorem test_seal :
    gives (exec (.seal 0) (given (sourced recorded .defined) (desc 0x05 0 0 []))) (fun t =>
      t.journal.state == .sealed && (t.source 3).state == .ended && t.journal.reserved == none &&
      t.byteAt (Config.completionEntry 0 0 + 24) == 3) = true := by decide +kernel

/-- TRUNCATE at time `t`. -/
def truncDesc (t : Nat) : Descriptor := desc 0x06 0 0 (leBytes 8 t)

/-- BUILDING with a view that moves; with an entry being written; UNFORMATTED. -/
theorem witness_TruncateRemovesTail :
    let s := given (viewed playing) (truncDesc 5000)
    let h := given (committing .idle) (truncDesc 5000)
    let z := given State.reset (truncDesc 5000)
    (Taken s 0 .truncate 0 (truncDesc 5000) ∧ mayReserve s 0 = true ∧ s.journal.state = .building ∧
      s.merge.writing = none ∧ Moving s.views[(2 : Slot)] ∧ 1 ≤ deltaFree s 2 ∧
      reports s s.views[(2 : Slot)].ctx.owner = true) ∧
    (Taken h 0 .truncate 0 (truncDesc 5000) ∧ mayReserve h 0 = true ∧ h.journal.state = .building ∧
      h.merge.writing ≠ none) ∧
    (Taken z 0 .truncate 0 (truncDesc 5000) ∧ mayReserve z 0 = true ∧ z.journal.state ≠ .building ∧
      z.journal.state ≠ .sealed) := by
  unfold Taken Moving; decide +kernel

/-- The steps after the first: a view above its new limit, of an open window and of one that ends, beside views that stay;
a checkpoint write in flight and none; and a TRUNCATE that waited for a write. -/
theorem witness_TruncateRemovesTail_steps :
    let held := viewed { watching.views[(2 : Slot)] with ctx := { cursor := 3, windowEnd := some 25000 } }
    (∀ x ∈ [watching, held], x.views[(2 : Slot)].state = .held ∧ x.copies = [] ∧ 1 ≤ deltaFree x 2 ∧
      reports x x.views[(2 : Slot)].ctx.owner = true) ∧
    ((watching.dram.journal.take 3).countP (fun e => decide (e.time ≤ 5000)) < watching.views[(2 : Slot)].ctx.cursor) ∧
    ((held.dram.journal.take 3).countP (fun e => decide (e.time ≤ 25000)) < held.views[(2 : Slot)].ctx.cursor) ∧
    watching.views[(0 : Slot)].state = .free ∧ checkpointHold (holding watching) = true ∧
    (checkpointHold watching = false ∧ Canonical watching ∧ (watching.slot 0).state = .inUse ∧ (watching.slot 0).pos ≤ 0) ∧
    (reserving recorded 0x06 (.truncateCommit 5000 [2])).journal.reserved =
      some ⟨0, false, .truncateCommit 5000 [2]⟩ := by
  unfold Canonical; decide +kernel

/-- At T = 20,000 the entries at or below T stay; the window record beyond it goes; the source is DEFINED. -/
theorem test_truncate :
    gives (exec (.truncate 0) (given (sourced windowed .streaming) (truncDesc 20000))) (fun t =>
      t.journal.committed == 2 && t.journal.state == .rebuilding && t.merge.window == [] &&
      (t.source 3).state == .defined && t.journal.reserved == some ⟨0, false, .rebuildLoading 1 1 0 0⟩ &&
      (t.slot 0).pins == 1) = true := by decide +kernel

/-- The view at cursor 1 lies above its new limit 0 (R103). -/
theorem test_truncate_view :
    gives (exec (.truncate 0) (given watching (truncDesc 5000))) (fun t =>
      t.views[(2 : Slot)].state == .seeking && t.views[(2 : Slot)].ctx.lastStop == .truncated &&
      (t.views[(2 : Slot)].seek.map SeekOp.target) == some 0) = true := by decide +kernel

/-- A truncation to 2 entries whose roll from checkpoint 0 has its last read on the channel. -/
def rebuilding : State :=
  let s := reserving recorded 0x06 (.rebuildRolling 1 0 0 [])
  granted { s with journal := { s.journal with committed := 2, state := .rebuilding } } .rebuild .b .rebuildRoll

theorem witness_RebuildRestoresImage :
    Canonical rebuilding ∧ rebuilding.journal.reserved = some ⟨0, false, .rebuildRolling 1 0 0 []⟩ ∧
      channelEnds rebuilding .rebuild .rebuildRoll = true ∧ (∀ v : Slot, rebuilding.views[v].seek = none) ∧
      findCommand rebuilding 0 = some (0, ⟨0, desc 0x06 0 0 [], false⟩) := by
  unfold Canonical; decide +kernel

/-- Device 0's last change is found again at position 0; device 1's stands. -/
theorem test_truncateRebuildEnd :
    gives (exec .truncateRebuildEnd rebuilding) (fun t =>
      t.journal.state == .building && t.merge.image.at 0 == ⟨.closed, false⟩ && t.merge.settled == some ⟨20000, 5, 3, 1⟩ &&
      lastChangeOf t 0 == some ⟨10000, 5, 0⟩ && lastChangeOf t 1 == some ⟨20000, 5, 1⟩ &&
      hasCause t.ports[(1 : PortId)].causes .truncated && t.ports[(1 : PortId)].fired) = true := by decide +kernel

/-- `rebuilding` with view 2's own seek to 2 waiting, `slots` in the directory, and a phase. -/
def truncatedSeek (k : SeekPhase) (slots : List (Nat × CheckpointSlot)) : State :=
  let w : View := { state := .seeking, ctx := { cursor := 3 }
                    seek := some ⟨none, .truncation, 2, false, none, some 3, k, false, 0⟩ }
  { rebuilding with
    directory := { rebuilding.directory with slots := slots }, views := rebuilding.views.set 2 w }

/-- A view that rolls, one that loads; seeks in flight and none; a view that forms its first frame, and one that does not. -/
theorem witness_TruncationSeeksEnd :
    let roll := truncatedSeek .awaitingRebuild [(0, { state := .inUse })]
    let load := truncatedSeek .awaitingRebuild [(0, { state := .inUse }), (1, { state := .inUse, pos := 2 })]
    (∀ s ∈ [roll, load], s.journal.reserved = some ⟨0, false, .rebuildRolling 1 0 0 []⟩ ∧
      channelEnds s .rebuild .rebuildRoll = true ∧
      s.views[(2 : Slot)].seek = some ⟨none, .truncation, 2, false, none, some 3, .awaitingRebuild, false, 0⟩ ∧
      ∀ x : Slot, x ≠ 2 → s.views[x].seek = none) ∧
    timeDistance 2 3 ≤ 2 - (roll.slot (seekBase roll 2)).pos ∧ 2 - (load.slot (seekBase load 2)).pos < timeDistance 2 3 ∧
    (∀ x ∈ [recorded, truncatedSeek .rolling []], (reserving x 0x06 (.truncateSeeks 1 0)).journal.reserved =
      some ⟨0, false, .truncateSeeks 1 0⟩) ∧
    (∀ v : Slot, recorded.views[v].seek = none) ∧
    findCommand (reserving recorded 0x06 (.truncateSeeks 1 0)) 0 = some (0, ⟨0, desc 0x06 0 0 [], false⟩) ∧
    recorded.journal.reserved = none ∧
    (∃ w : View, w = { playing with frame := none } ∧ w.state = .running ∧ w.frame = none ∧ w.atEdge = false) ∧
    watching.views[(2 : Slot)].state ≠ .running := by
  refine ⟨by decide +kernel, by decide +kernel, by decide +kernel, by decide +kernel, by decide +kernel, by decide +kernel,
    rfl, ⟨_, rfl, by decide +kernel⟩, by decide +kernel⟩

/-- The rebuild's end starts the view's seek; the journal stays REBUILDING until it has ended (R104). -/
theorem test_truncate_seeks :
    gives (exec .truncateRebuildEnd (truncatedSeek .awaitingRebuild [(0, { state := .inUse })])) (fun t =>
      t.journal.state == .rebuilding && (t.views[(2 : Slot)].seek.map SeekOp.phase) == some .rolling &&
      (t.journal.reserved.map Reserved.work) == some (.truncateSeeks 1 0)) = true := by decide +kernel

/-! ### Witnesses and steps: checkpoints -/

/-- A checkpoint is due at 1,024, with the slots given. -/
def dueWith (slots : List (Nat × CheckpointSlot)) : State :=
  { recorded with directory := { recorded.directory with slots := slots, due := some 1024 } }

/-- A directory of 1,024 checkpoints, slot 1 pinned. -/
def fullDirectory : List (Nat × CheckpointSlot) :=
  (List.range 1024).map fun k => (k, { state := .inUse, pos := 1024 * k, pins := if k = 1 then 1 else 0 })

/-- Slot 1 is FREE and pinned, slot 2 is the lowest without a pin. -/
def someSlots : List (Nat × CheckpointSlot) := [(0, { state := .inUse }), (1, { pins := 1 })]

theorem dueWith_slot (l : List (Nat × CheckpointSlot)) (k : Nat) : (dueWith l).slot k = (l.lookup k).getD {} := rfl

/-- Slots 1 to 1,023 are FREE and pinned. -/
def pinnedSlots : List (Nat × CheckpointSlot) :=
  (List.range 1024).map fun k => (k, if k = 0 then { state := .inUse } else { pins := 1 })

theorem witness_CheckpointWriteStarts :
    let s := dueWith someSlots
    Canonical s ∧ s.directory.due = some 1024 ∧ s.directory.write = none ∧ checkpointCount s ≠ 1024 ∧
      (s.slot 2).state = .free ∧ (s.slot 2).pins = 0 ∧
      ∀ j < 2, ¬ ((s.slot j).state = .free ∧ (s.slot j).pins = 0) := by
  unfold Canonical; decide +kernel

theorem witness_CheckpointWriteStarts_waits :
    Canonical (dueWith pinnedSlots) ∧ checkpointCount (dueWith pinnedSlots) ≠ 1024 ∧
      ∀ k < 1024, ¬ (((dueWith pinnedSlots).slot k).state = .free ∧ ((dueWith pinnedSlots).slot k).pins = 0) := by
  refine ⟨by unfold Canonical; decide +kernel, by decide +kernel, fun k hk => ?_⟩
  have found : (dueWith pinnedSlots).slot k = if k = 0 then { state := .inUse } else { pins := 1 } :=
by
    rw [dueWith_slot, pinnedSlots, List.lookup_graph _ (List.mem_range.mpr hk), Option.getD_some]
  rw [found]
  split <;> simp

theorem witness_CheckpointWriteStarts_thins :
    let s := dueWith fullDirectory
    let odd := fun k => (s.slot k).state = .inUse ∧ (s.slot k).pos / s.directory.interval % 2 = 1
    Canonical s ∧ checkpointCount s = 1024 ∧ (odd 3 ∧ (s.slot 3).pins = 0) ∧
      (∀ j < 3, ¬ (((s.slot j).state = .free ∨ odd j) ∧ (s.slot j).pins = 0)) ∧ odd 1 ∧ (s.slot 1).pins = 1 := by
  unfold Canonical; decide +kernel

/-- A directory of 1,024 checkpoints, each pinned. -/
def pinnedDirectory : List (Nat × CheckpointSlot) :=
  (List.range 1024).map fun k => (k, { state := .inUse, pos := 1024 * k, pins := 1 })

theorem witness_CheckpointWriteStarts_thinsAndWaits :
    Canonical (dueWith pinnedDirectory) ∧ checkpointCount (dueWith pinnedDirectory) = 1024 ∧
      ∀ k < 1024, ((dueWith pinnedDirectory).slot k).pins ≠ 0 := by
  refine ⟨by unfold Canonical; decide +kernel, by decide +kernel, fun k hk => ?_⟩
  rw [dueWith_slot, pinnedDirectory, List.lookup_graph _ (List.mem_range.mpr hk), Option.getD_some]
  simp

theorem test_checkpointWriteStart :
    gives (exec .checkpointWriteStart (dueWith someSlots)) (fun t =>
      t.directory.write == some ⟨2, 1024, false⟩ && t.slot 2 == { state := .writing, pos := 1024 } &&
      t.directory.due == none && t.arbiter.backlog.length == 15) = true := by decide +kernel

/-- The worked thinning sequence, event 1: 512 checkpoints, interval 2,048, the write goes to slot 3. -/
theorem test_checkpointWriteStart_thins :
    gives (exec .checkpointWriteStart (dueWith fullDirectory)) (fun t =>
      checkpointCount t == 512 && t.directory.interval == 2048 && t.directory.write == some ⟨3, 1024, false⟩ &&
      t.slot 1 == { pins := 1 }) = true := by decide +kernel

/-- Checkpoint 1,024's last write is on the channel, into slot 1. -/
def checkpointing (s : State) : State :=
  granted { s with directory := { s.directory with
      slots := [(0, { state := .inUse }), (1, { state := .writing, pos := 1024 })], write := some ⟨1, 1024, false⟩ } }
    .checkpointWriter .c .checkpointWrite

theorem witness_CheckpointWriteEnds :
    (∀ w ∈ [ReservedWork.formatCheckpoint, .catalogueCheckpoint ⟨0, 2, 2, 1, 1, 0⟩, .truncateDirectory 1 0, .sealing 2,
        .formatDirectory 4096, .formatCommit 4 4096 0, .formatCatalogue 4096, .truncateCommit 20000 []],
      let s := checkpointing (reserving recorded 0x01 w)
      channelEnds s .checkpointWriter .checkpointWrite = true ∧ s.directory.write = some ⟨1, 1024, false⟩ ∧
        s.directory.due = none ∧ s.journal.reserved = some ⟨0, false, w⟩ ∧ Canonical s ∧
        findCommand s 0 = some (0, ⟨0, desc 0x01 0 0 [], false⟩)) ∧
    (channelEnds (checkpointing recorded) .checkpointWriter .checkpointWrite = true ∧
      (checkpointing recorded).directory.due = none ∧ (checkpointing recorded).journal.reserved = none) ∧
    (channelEnds (holding (checkpointing recorded)) .checkpointWriter .checkpointWrite = true ∧
      (holding (checkpointing recorded)).directory.write = some ⟨1, 1024, false⟩ ∧
      (holding (checkpointing recorded)).directory.due ≠ none ∧
      (holding (checkpointing recorded)).journal.reserved = none) := by
  unfold Canonical; decide +kernel

/-- The slot holds the commit image, and FORMAT completes with TRUNCATED raised. -/
theorem test_checkpointWriteEnd :
    gives (exec .checkpointWriteEnd (checkpointing (reserving recorded 0x01 .formatCheckpoint))) (fun t =>
      t.slot 1 == { state := .inUse, pos := 1024 } && t.slotImage 1 == recorded.merge.image &&
      t.directory.write == none && t.journal.reserved == none && t.ports[(0 : PortId)].produced == 1 &&
      hasCause t.ports[(1 : PortId)].causes .truncated) = true := by decide +kernel

/-- View 2's seek reads slot 0 to reach position 3, its last read on the channel. -/
def seekLoading : State :=
  let s := viewed (seekingBy ⟨some 0, .seek, 3, false, none, some 1, .loading 0, true, 0⟩)
  granted (s.setSlot 0 { state := .inUse, pins := 1 }) (.view 2) .b .seekLoad

/-- The truncation rebuild reads slot 0, its last read on the channel. -/
def rebuildLoadingState : State :=
  let s := reserving recorded 0x06 (.rebuildLoading 1 0 0 0)
  granted (s.setSlot 0 { state := .inUse, pins := 1 }) .rebuild .b .rebuildLoad

/-- Slot 5 is FREE with `pins` loads, and every other FREE slot with one. -/
def awaitedSlots (pins : Nat) : List (Nat × CheckpointSlot) :=
  (List.range 1024).map fun k => (k, if k = 0 then { state := .inUse } else { pins := if k = 5 then pins else 1 })

/-- The checkpoint at 1,024 is due and waits for a slot, and view 2's load of slot 5 has ended. -/
def slotAwaited (pins : Nat) : State :=
  let w := seekingBy ⟨some 0, .seek, 3, false, none, some 1, .loading 5, true, 0⟩
  granted ({ dueWith (awaitedSlots pins) with views := (viewed w).views }) (.view 2) .b .seekLoad

theorem slotAwaited_slot (pins k : Nat) (hk : k < 1024) : (slotAwaited pins).slot k =
    if k = 0 then { state := .inUse } else { pins := if k = 5 then pins else 1 } := by
  have listed : (slotAwaited pins).slot k = (dueWith (awaitedSlots pins)).slot k := rfl
  rw [listed, dueWith_slot, awaitedSlots, List.lookup_graph _ (List.mem_range.mpr hk), Option.getD_some]

/-- Slot 5's last pin, and the last but one. -/
theorem witness_SeekBaseAndLoadEnd_waits :
    ∀ n ∈ [1, 2], channelEnds (slotAwaited n) (.view 2) .seekLoad = true ∧
      (slotAwaited n).views[(2 : Slot)].seek = some ⟨some 0, .seek, 3, false, none, some 1, .loading 5, true, 0⟩ ∧
      (slotAwaited n).directory.due = some 1024 ∧ (slotAwaited n).directory.write = none ∧
      (∀ k < 1024, ¬ (((slotAwaited n).slot k).state = .free ∧ ((slotAwaited n).slot k).pins = 0)) ∧
      ((slotAwaited n).slot 5).state = .free ∧ ((slotAwaited n).slot 5).pins = n := by
  intro n hn
  have known : n = 1 ∨ n = 2 := by simpa using hn
  refine ⟨rfl, rfl, rfl, rfl, fun k hk => ?_, by rw [slotAwaited_slot _ _ (by omega)]; rfl,
    by rw [slotAwaited_slot _ _ (by omega)]; rfl⟩
  rw [slotAwaited_slot n k hk]
  split
  · simp
  · split
    · simp; omega
    · simp

/-- The copy begins when the last pin falls, into that slot, and not before (R65). -/
theorem test_releasePin_waits :
    (releasePin (slotAwaited 1) 5).directory.write = some ⟨5, 1024, false⟩ ∧
      (releasePin (slotAwaited 2) 5).directory.write = none := by
  have waits := fun n hn => (lowestFreeSlot_eq_none _).mpr (witness_SeekBaseAndLoadEnd_waits n hn).2.2.2.2.1
  constructor
  · rw [releasePin_takes (slotAwaited 1) 1024 5 rfl rfl (waits 1 (by simp)) (by omega)
      (by rw [slotAwaited_slot _ _ (by omega)]; rfl) (by rw [slotAwaited_slot _ _ (by omega)]; rfl)]
    rfl
  · rw [releasePin_only (slotAwaited 2) 5 (by rw [slotAwaited_slot _ _ (by omega)]; simp)]
    rfl

/-- The seek base at the boundary: a checkpoint at the position itself. -/
theorem witness_SeekBaseAndLoadEnd :
    let s := { recorded with directory := { recorded.directory with
      slots := [(0, { state := .inUse }), (5, { state := .inUse, pos := 2 }), (6, { state := .inUse, pos := 3 })] } }
    (Canonical s ∧ (s.slot 5).state = .inUse ∧ (s.slot 5).pos ≤ 2 ∧ seekBase s 2 = 5) ∧
    (channelEnds seekLoading (.view 2) .seekLoad = true ∧
      seekLoading.views[(2 : Slot)].seek = some ⟨some 0, .seek, 3, false, none, some 1, .loading 0, true, 0⟩) ∧
    (channelEnds rebuildLoadingState .rebuild .rebuildLoad = true ∧
      rebuildLoadingState.journal.reserved = some ⟨0, false, .rebuildLoading 1 0 0 0⟩) := by
  unfold Canonical; decide +kernel

theorem test_checkpointLoadEnd :
    gives (exec (.checkpointLoadEnd (.view 2)) seekLoading) (fun t =>
      (t.slot 0).pins == 0 && (t.views[(2 : Slot)].seek.map SeekOp.phase) == some .rolling &&
      (t.arbiter.waiting ++ t.arbiter.backlog).length == 2) = true := by decide +kernel

theorem test_checkpointLoadEnd_rebuild :
    gives (exec (.checkpointLoadEnd .rebuild) rebuildLoadingState) (fun t =>
      (t.slot 0).pins == 0 && (t.journal.reserved.map Reserved.work) == some (.rebuildRolling 1 0 0 [])) = true := by
  decide +kernel

/-! ### Witnesses and steps: views -/

/-- Each source command on each of its failing checks: UNFORMATTED, id 256, another port's source, a state that does not
take it. -/
theorem witness_ChecksInOrder :
    (∀ x ∈ [(0x10, CommandKind.defineSource), (0x11, .claimSource), (0x12, .releaseSource), (0x13, .endSource),
        (0x14, .anchorSource)],
      Taken (given State.reset (desc x.1 3 0 [])) 0 x.2 0 (desc x.1 3 0 []) ∧
      (Taken (given station (desc x.1 256 0 [])) 0 x.2 0 (desc x.1 256 0 []) ∧ 255 < (desc x.1 256 0 []).target) ∧
      (Taken (given (station.setSource 255 { owner := some 1 }) (desc x.1 255 0 [])) 0 x.2 0 (desc x.1 255 0 []) ∧
        ∃ q : PortId, ((given (station.setSource 255 { owner := some 1 }) (desc x.1 255 0 [])).source 255).owner = some q ∧
          q ≠ 0) ∧
      (Taken (given station (desc x.1 3 0 [])) 0 x.2 0 (desc x.1 3 0 []) ∧
        NamesSource (given station (desc x.1 3 0 [])) 0 (desc x.1 3 0 []) ∧
        ((given station (desc x.1 3 0 [])).source 3).state = .undefined)) ∧
    (NamesSource (given (sourced station .streaming) (desc 0x10 3 0 [])) 0 (desc 0x10 3 0 []) ∧
      ((given (sourced station .streaming) (desc 0x10 3 0 [])).source 3).state = .streaming) ∧
    (NamesSource (given (sourced station .ended) (desc 0x14 3 0 [])) 0 (desc 0x14 3 0 []) ∧
      ((given (sourced station .ended) (desc 0x14 3 0 [])).source 3).state = .ended) := by
  unfold Taken NamesSource; decide +kernel

/-- Each view command on slot 8, on a FREE slot, on another port's view, and on a SEEKING view. -/
theorem witness_ChecksInOrder_views :
    ∀ x ∈ [(0x21, CommandKind.seek), (0x22, .returnMark), (0x26, .exchange), (0x23, .mark), (0x24, .park),
        (0x27, .closeView), (0x30, .run), (0x31, .hold), (0x32, .step), (0x33, .setPace), (0x34, .setStops),
        (0x35, .setFilter), (0x36, .publish)],
      let d := desc x.1 2 0 []
      (Taken (given watching (desc x.1 8 0 [])) 0 x.2 0 (desc x.1 8 0 []) ∧ 7 < (desc x.1 8 0 []).target ∧
        reservationHeld (given watching (desc x.1 8 0 [])) = false) ∧
      (Taken (given watching (desc x.1 7 0 [])) 0 x.2 0 (desc x.1 7 0 []) ∧
        (given watching (desc x.1 7 0 [])).views[(7 : Slot)].state = .free) ∧
      (Taken (given (viewed { playing with ctx := { owner := 1 } }) d) 0 x.2 0 d ∧ d.target = (2 : Slot).val ∧
        (given (viewed { playing with ctx := { owner := 1 } }) d).views[(2 : Slot)].state ≠ .free) ∧
      (Taken (given seekLoading d) 0 x.2 0 d ∧ (given seekLoading d).views[(2 : Slot)].state = .seeking ∧
        (given seekLoading d).views[(2 : Slot)].ctx.owner = 0) := by
  unfold Taken; decide +kernel

/-- OPEN_VIEW from 15,000 to an end, at width 7. -/
def openDesc (stop : Nat) : Descriptor := desc 0x20 0 0 (leBytes 8 15000 ++ leBytes 8 stop ++ leBytes 2 7)

/-- Every view slot taken. -/
def crowded : State := { recorded with views := Vector.replicate 8 { state := .held } }

theorem witness_OpenViewPlacesView :
    let d := openDesc 18446744073709551615
    (Taken (given recorded d) 0 .openView 0 d ∧ reservationHeld (given recorded d) = false ∧
      (given recorded d).journal.state ≠ .unformatted ∧ (given recorded d).views[(0 : Slot)].state = .free) ∧
    (Taken (given recorded (openDesc 20000)) 0 .openView 0 (openDesc 20000) ∧
      (openDesc 20000).field 16 8 ≠ 18446744073709551615) ∧
    (Taken (given crowded d) 0 .openView 0 d ∧ ∀ v : Slot, (given crowded d).views[v].state ≠ .free) ∧
    (Taken (given State.reset d) 0 .openView 0 d ∧ reservationHeld (given State.reset d) = false ∧
      (given State.reset d).journal.state = .unformatted) := by
  unfold Taken; decide +kernel

theorem test_openView :
    gives (exec (.openView 0) (given recorded (openDesc 20000))) (fun t =>
      t.views[(0 : Slot)].state == .seeking && t.views[(0 : Slot)].ctx.cursor == 1 &&
      t.views[(0 : Slot)].ctx.windowEnd == some 20000 && t.views[(0 : Slot)].ctx.width == 7 &&
      (t.slot 0).pins == 1 && t.arbiter.waiting.length == 1) = true := by decide +kernel

/-- SEEK to position 9, which is clamped to 3; SEEK to time 20,000, with width 4. -/
def seekDesc : Descriptor := desc 0x21 2 0 ([0, 0] ++ zeros 6 ++ leBytes 8 9)
def seekTimeDesc : Descriptor := desc 0x21 2 0 ([1, 1] ++ leBytes 2 4 ++ zeros 4 ++ leBytes 8 20000)

/-- `watching` with the cursor pushed once at 3. -/
def marked : State := viewed { watching.views[(2 : Slot)] with ctx := { cursor := 1, cursorTime := 10000, marks := [3] } }

/-- `watching` with a second checkpoint at 3. -/
def checkpointed : State := watching.setSlot 1 { state := .inUse, pos := 3 }

theorem witness_SeekChoosesRoute :
    let s := given watching seekDesc
    let r := given (viewed playing) seekTimeDesc
    let c := given checkpointed seekDesc
    let m := given marked (desc 0x22 2 0 [])
    let e := given watching (desc 0x22 2 0 [])
    (reservationHeld s = false ∧ NamesView s 0 seekDesc 2 ∧ Taken s 0 .seek 0 seekDesc ∧
      clampTarget s s.views[(2 : Slot)].ctx 9 = 3 ∧ timeDistance 3 1 ≤ 3 - (s.slot (seekBase s 3)).pos) ∧
    (reservationHeld r = false ∧ NamesView r 0 seekTimeDesc 2 ∧ Taken r 0 .seek 0 seekTimeDesc ∧
      Moving r.views[(2 : Slot)]) ∧
    (reservationHeld c = false ∧ NamesView c 0 seekDesc 2 ∧ Taken c 0 .seek 0 seekDesc ∧
      3 - (c.slot (seekBase c 3)).pos < timeDistance 3 1) ∧
    (reservationHeld m = false ∧ NamesView m 0 (desc 0x22 2 0 []) 2 ∧ Taken m 0 .returnMark 0 (desc 0x22 2 0 []) ∧
      m.views[(2 : Slot)].ctx.marks = 3 :: []) ∧
    (reservationHeld e = false ∧ NamesView e 0 (desc 0x22 2 0 []) 2 ∧ Taken e 0 .returnMark 0 (desc 0x22 2 0 []) ∧
      e.views[(2 : Slot)].ctx.marks = []) := by
  unfold Taken NamesView Moving; decide +kernel

theorem test_seek_rolls :
    gives (exec (.seek 0) (given watching seekDesc)) (fun t =>
      t.views[(2 : Slot)].seek == some ⟨some 0, .seek, 3, true, none, some 1, .rolling, false, 1⟩ &&
      (t.slot 0).pins == 0) = true := by decide +kernel

theorem test_seek_loads :
    gives (exec (.seek 0) (given checkpointed seekDesc)) (fun t =>
      t.views[(2 : Slot)].seek == some ⟨some 0, .seek, 3, true, none, some 1, .loading 1, true, 3⟩ &&
      (t.slot 1).pins == 1) = true := by decide +kernel

theorem test_return :
    gives (exec (.returnMark 0) (given marked (desc 0x22 2 0 []))) (fun t =>
      t.views[(2 : Slot)].ctx.marks == [] && (t.views[(2 : Slot)].seek.map SeekOp.target) == some 3) = true := by
  decide +kernel

/-- View 2's roll from 1 to 3 is on its last transfer. -/
def seekRolling (serial : Option Nat) (published : Bool) : State :=
  let w := seekingBy ⟨serial, .seek, 3, false, some 9, some 1, .rolling, false, 1⟩
  granted (given (viewed { w with ctx := { w.ctx with published := published } }) (desc 0x21 2 0 [])) (.view 2) .b .seekRoll

/-- View 2's seek to 1, its start, is reached, and its window opens after the three committed entries (published, or not). -/
def seekCarried (published : Bool) : State :=
  let w := seekingBy ⟨none, .seek, 1, false, none, some 1, .rolling, false, 1⟩
  viewed { w with ctx := { w.ctx with published := published, windowStart := 40000 } }

/-- With room for the mark, and without; and two carries at the end, of a published view and another. -/
theorem witness_SeekEndsHeld :
    let full := (seekRolling (some 0) false).setView 2
      { (seekRolling (some 0) false).views[(2 : Slot)] with producer := 4096 }
    (∀ s ∈ [seekRolling (some 0) true, seekRolling none false],
      seekReached s 2 = true ∧ windowBase s s.views[(2 : Slot)].ctx ≤ 3 ∧ 1 ≤ deltaFree s 2) ∧
    seekReached full 2 = true ∧ deltaFree full 2 = 0 ∧
    (∀ s ∈ [seekCarried true, seekCarried false],
      seekReached s 2 = true ∧ windowBase s s.views[(2 : Slot)].ctx - 1 = 2 ∧ 1 ≤ deltaFree s 2 ∧ s.ring.up = true) ∧
    findCommand (seekRolling (some 0) true) 0 = some (0, ⟨0, desc 0x21 2 0 [], false⟩) := by decide +kernel

theorem test_seekEnd :
    gives (exec (.seekEnd 2) (seekRolling (some 0) false)) (fun t =>
      t.views[(2 : Slot)].state == .held && t.views[(2 : Slot)].ctx.cursor == 3 && t.views[(2 : Slot)].ctx.width == 9 &&
      t.views[(2 : Slot)].ctx.cursorTime == 30000 && t.views[(2 : Slot)].ctx.counter == 2 &&
      t.views[(2 : Slot)].producer == 1 && t.dram.viewImages[(2 : Slot)].at 0 == ⟨.opened, false⟩ &&
      t.bytesAt (Config.deltaEntry 2 0) 9 == [2, 0, 0, 0, 0, 0, 0, 0, 3]) = true := by decide +kernel

/-- The seek's target is 1 and the base 3: entries 1 and 2 are carried (R79). -/
theorem test_seekEnd_carries :
    gives (exec (.seekEnd 2) (seekCarried false)) (fun t =>
      t.views[(2 : Slot)].state == .held && t.views[(2 : Slot)].ctx.cursor == 3 &&
      t.views[(2 : Slot)].ctx.cursorTime == 40000 && t.views[(2 : Slot)].ctx.counter == 6 &&
      t.dram.viewImages[(2 : Slot)].at 0 == ⟨.opened, false⟩ && t.ring.own.length == 4) = true := by decide +kernel

/-- `s` with parked entry 63 of port `p`, at cursor 9. -/
def parkedBy (s : State) (p : PortId) : State := s.setParked 63 (some { owner := p, cursor := 9 })

theorem witness_ParkResumeExchange :
    let d := desc 0x25 63 0 []
    let z := desc 0x25 64 0 []
    (Taken (given (parkedBy recorded 0) d) 0 .resume 0 d ∧ reservationHeld (given (parkedBy recorded 0) d) = false ∧
      (given (parkedBy recorded 0) d).parkedEntry 63 = some { owner := 0, cursor := 9 } ∧
      (given (parkedBy recorded 0) d).views[(0 : Slot)].state = .free) ∧
    (Taken (given (parkedBy crowded 0) d) 0 .resume 0 d ∧ ∀ v : Slot, (given (parkedBy crowded 0) d).views[v].state ≠ .free) ∧
    (Taken (given (parkedBy recorded 1) d) 0 .resume 0 d ∧
      (given (parkedBy recorded 1) d).parkedEntry 63 = some { owner := 1, cursor := 9 }) ∧
    (Taken (given recorded d) 0 .resume 0 d ∧ (given recorded d).parkedEntry 63 = none) ∧
    (Taken (given recorded z) 0 .resume 0 z ∧ 63 < z.target) := by
  unfold Taken; decide +kernel

theorem witness_ParkResumeExchange_exchange :
    let d := desc 0x26 2 63 []
    let z := desc 0x26 2 64 []
    (∀ x ∈ [watching, viewed playing], Taken (given (parkedBy x 0) d) 0 .exchange 0 d ∧
      reservationHeld (given (parkedBy x 0) d) = false ∧ NamesView (given (parkedBy x 0) d) 0 d 2 ∧
      (given (parkedBy x 0) d).parkedEntry d.target2 = some { owner := 0, cursor := 9 }) ∧
    Moving (given (parkedBy (viewed playing) 0) d).views[(2 : Slot)] ∧
    (Taken (given (parkedBy watching 1) d) 0 .exchange 0 d ∧ NamesView (given (parkedBy watching 1) d) 0 d 2 ∧
      (given (parkedBy watching 1) d).parkedEntry d.target2 = some { owner := 1, cursor := 9 }) ∧
    (Taken (given watching d) 0 .exchange 0 d ∧ NamesView (given watching d) 0 d 2 ∧
      (given watching d).parkedEntry d.target2 = none) ∧
    (Taken (given watching z) 0 .exchange 0 z ∧ NamesView (given watching z) 0 z 2 ∧ 63 < z.target2) := by
  unfold Taken NamesView Moving; decide +kernel

theorem test_resume :
    gives (exec (.resume 0) (given (parkedBy recorded 0) (desc 0x25 63 0 []))) (fun t =>
      t.parkedEntry 63 == none && t.views[(0 : Slot)].seek == some ⟨some 0, .resume, 3, true, none, none, .routed (some 0), true, 0⟩ &&
      t.copies == [.restore 0] && (t.slot 0).pins == 1) = true := by decide +kernel

theorem test_exchange :
    gives (exec (.exchange 0) (given (parkedBy watching 0) (desc 0x26 2 63 []))) (fun t =>
      (t.parkedEntry 63).map ViewContext.cursor == some 1 && t.views[(2 : Slot)].ctx.cursor == 9 &&
      (t.views[(2 : Slot)].seek.map SeekOp.positioned) == some (some 1) &&
      (t.arbiter.waiting ++ t.arbiter.backlog).length == 2) = true := by decide +kernel

/-- Every parked entry filled. -/
def fullyParked : State := { watching with parked := (List.range 64).map fun i => (i, some {}) }

/-- View 2 is being parked into entry 0, and a PARK of view 3 is to be taken. -/
def parkedBeside : State :=
  let s := { given watching (desc 0x24 3 0 []) with copies := [.park 1 2 0] }
  s.setView 3 watching.views[(2 : Slot)]

/-- A view that moves and one that is still; every entry filled; entry 0 promised to another PARK. -/
theorem witness_ParkResumeExchange_park :
    let d := desc 0x24 2 0 []
    (∀ x ∈ [watching, viewed playing], Taken (given x d) 0 .park 0 d ∧ NamesView (given x d) 0 d 2 ∧
      (given x d).parkedEntry 0 = none ∧ (given x d).copies = []) ∧
    Moving (given (viewed playing) d).views[(2 : Slot)] ∧ ¬ Moving (given watching d).views[(2 : Slot)] ∧
    (Taken (given fullyParked d) 0 .park 0 d ∧ NamesView (given fullyParked d) 0 d 2 ∧
      ∀ i < 64, (given fullyParked d).parkedEntry i ≠ none) ∧
    (Taken parkedBeside 0 .park 0 (desc 0x24 3 0 []) ∧ NamesView parkedBeside 0 (desc 0x24 3 0 []) 3 ∧
      parkedBeside.parkedEntry 1 = none ∧ parkedBeside.copies = [.park 1 2 0]) := by
  unfold Taken NamesView Moving; decide +kernel

/-- A parked-context copy on the channel. -/
def copying (j : CopyJob) (s : State) : State :=
  granted { given s (desc 0x24 2 0 []) with copies := [j] } .contextCopier .d .contextCopy

/-- View 2's exchange, its context copy in flight, with the route given. -/
def exchanging (base : Option Nat) : State :=
  viewed (seekingBy ⟨some 0, .exchange, 3, false, none, some 1, .routed base, base.isSome, 1⟩)

theorem witness_ParkResumeExchange_copyEnd :
    (channelEnds (copying (.park 0 2 5) watching) .contextCopier .contextCopy = true ∧
      (copying (.park 0 2 5) watching).copies = .park 0 2 5 :: [] ∧
      findCommand (copying (.park 0 2 5) watching) 0 = some (0, ⟨0, desc 0x24 2 0 [], false⟩)) ∧
    (∀ b ∈ [some 0, none], let s := copying (.restore 2) (exchanging b)
      channelEnds s .contextCopier .contextCopy = true ∧ s.copies = .restore 2 :: [] ∧
      s.views[(2 : Slot)].seek = some ⟨some 0, .exchange, 3, false, none, some 1, .routed b, b.isSome, 1⟩) := by decide +kernel

theorem test_park :
    gives (exec (.park 0) (given (viewed playing) (desc 0x24 2 0 []))) (fun t =>
      t.views[(2 : Slot)].state == .held && t.views[(2 : Slot)].ctx.lastStop == .holdCmd && t.parkedEntry 0 == none &&
      t.views[(2 : Slot)].producer == 1 && t.copies == [.park 0 2 0]) = true ∧
    gives (exec (.park 0) parkedBeside) (fun t => t.copies == [.park 1 2 0, .park 0 3 1]) = true := by decide +kernel

/-- The context is saved, the slot freed, and PARK completes with its parked id. -/
theorem test_parkedContextCopyEnd :
    gives (exec .parkedContextCopyEnd (copying (.park 0 2 5) watching)) (fun t =>
      t.views[(2 : Slot)].state == .free && (t.parkedEntry 5).map ViewContext.cursor == some 1 &&
      t.copies == [] && t.bytesAt (Config.completionEntry 0 0 + 3) 6 == [0, 0, 0, 0, 0, 5]) = true := by decide +kernel

/-- SET_PACE: FLAT, speed −7, quiet limit 999, each of the two clamped. -/
def paceDesc : Descriptor := desc 0x33 2 0 ([1, 0xF9, 0, 0] ++ leBytes 4 999)

theorem witness_MarksSettingsAndClose :
    (NamesView (given watching (desc 0x23 2 0 [])) 0 (desc 0x23 2 0 []) 2 ∧
      Taken (given watching (desc 0x23 2 0 [])) 0 .mark 0 (desc 0x23 2 0 [])) ∧
    (NamesView (given (viewed playing) paceDesc) 0 paceDesc 2 ∧ Taken (given (viewed playing) paceDesc) 0 .setPace 0 paceDesc) ∧
    (NamesView (given (viewed stalled) (desc 0x27 2 0 [])) 0 (desc 0x27 2 0 []) 2 ∧
      Taken (given (viewed stalled) (desc 0x27 2 0 [])) 0 .closeView 0 (desc 0x27 2 0 [])) := by
  unfold Taken NamesView; decide +kernel

theorem test_mark :
    gives (exec (.mark 0) (given marked (desc 0x23 2 0 []))) (fun t =>
      t.views[(2 : Slot)].ctx.marks == [1, 3] && t.byteAt (Config.completionEntry 0 0 + 16) == 2) = true := by decide +kernel

theorem test_setPace :
    gives (exec (.setPace 0) (given watching paceDesc)) (fun t =>
      t.views[(2 : Slot)].ctx.mode == .flat && t.views[(2 : Slot)].ctx.speed == -6 &&
      t.views[(2 : Slot)].ctx.quiet == 1000 && t.byteAt (Config.completionEntry 0 0 + 3) == 1) = true := by decide +kernel

theorem test_closeView :
    gives (exec (.closeView 0) (given (viewed { stalled with producer := 9 }) (desc 0x27 2 0 []))) (fun t =>
      t.views[(2 : Slot)] == { producer := 9 } && t.bytesAt (Config.viewStatusAddr 2 + 8) 7 == [0, 0, 0, 0, 0, 0, 9]) = true := by
  decide +kernel

/-- A stop block: break time 25,000, stop on ambiguous, devices 1, 9, 1: one is out of range and one named twice. -/
def stopBlock : List Byte := [1, 1, 3] ++ zeros 5 ++ leBytes 8 25000 ++ leBytes 2 1 ++ leBytes 2 9 ++ leBytes 2 1

/-- A filter block: stations 10 to 5,000, and the empty range 7 to 6; kinds BREAKER and DISCONNECTOR. -/
def filterBlock : List Byte := [2, 3] ++ zeros 6 ++ leBytes 2 10 ++ leBytes 2 5000 ++ leBytes 2 7 ++ leBytes 2 6

theorem witness_MarksSettingsAndClose_blocks :
    let d := desc 0x34 2 0 (leBytes 4 63995)
    let f := desc 0x35 2 0 []
    (∀ x ∈ [staged watching stopBlock, staged (viewed delayed) stopBlock],
      Taken (given x d) 0 .setStops 0 d ∧ NamesView (given x d) 0 d 2) ∧ 512000 < 8 * d.position + 48 ∧
    (∀ x ∈ [staged watching filterBlock, staged (viewed stalled) filterBlock],
      Taken (given x f) 0 .setFilter 0 f ∧ NamesView (given x f) 0 f 2) := by
  unfold Taken NamesView; decide +kernel

theorem test_setStops :
    gives (exec (.setStops 0) (given (staged watching stopBlock) (desc 0x34 2 0 []))) (fun t =>
      t.views[(2 : Slot)].ctx.breakTime == some 25000 && t.views[(2 : Slot)].ctx.watch == [1] &&
      t.views[(2 : Slot)].ctx.stopAmbiguous &&
      t.bytesAt (Config.completionEntry 0 0 + 3) 14 == [1, 0, 0, 0, 0, 1, 0, 0, 0, 0, 0, 0, 0, 1]) = true := by decide +kernel

/-- A changed break time is told to a frame that is being delayed (R116). -/
theorem test_setStops_delayed :
    gives (exec (.setStops 0) (given (staged (viewed delayed) stopBlock) (desc 0x34 2 0 []))) (fun t =>
      (t.views[(2 : Slot)].frame.map Frame.phase) == some (.delaying true)) = true := by decide +kernel

theorem test_setFilter :
    gives (exec (.setFilter 0) (given (staged watching filterBlock) (desc 0x35 2 0 []))) (fun t =>
      t.views[(2 : Slot)].ctx.ranges == [(10, 4095)] && t.views[(2 : Slot)].ctx.kinds == 3 &&
      t.bytesAt (Config.completionEntry 0 0 + 3) 14 == [1, 0, 0, 0, 0, 1, 0, 0, 0, 0, 0, 0, 0, 1]) = true := by decide +kernel

/-- A block that would reach beyond the staging area is read from its last position, and its move alone gives no CLAMPED
(R126). -/
theorem test_setFilter_moved :
    gives (exec (.setFilter 0) (given watching (desc 0x35 2 0 (leBytes 4 63996)))) (fun t =>
      t.bytesAt (Config.completionEntry 0 0) 9 == [7, 0, 0x35, 0, 0, 0, 0, 0, 0]) = true := by decide +kernel

theorem witness_PublishWritesImage :
    let d := desc 0x36 2 0 [1]
    let z := desc 0x36 2 0 [0]
    (Taken (given watching d) 0 .publish 0 d ∧ NamesView (given watching d) 0 d 2 ∧ d.field 8 1 = 1) ∧
    (Taken (given watching z) 0 .publish 0 z ∧ NamesView (given watching z) 0 z 2 ∧ z.field 8 1 = 0) := by
  unfold Taken NamesView; decide +kernel

theorem test_publish_counts :
    gives (exec (.publish 0) (given watching (desc 0x36 2 0 [1]))) (fun t =>
      t.views[(2 : Slot)].ctx.published && t.views[(2 : Slot)].ctx.counter == 2) = true := by decide +kernel

/-! ### Witnesses and steps: motion -/

/-- No hypothesis on the cause or the device: a view with room in its delta ring and one without, a STEP in flight. -/
theorem witness_StopRecordsItself :
    let st : StepOp := ⟨0, 4, false⟩
    let s := given (viewed { playing with step := some st }) (desc 0x32 2 0 [])
    (1 ≤ deltaFree watching 2 ∧ reports watching watching.views[(2 : Slot)].ctx.owner = true ∧
      watching.views[(2 : Slot)].step = none ∧ deltaDistance watching 2 ≤ 4096) ∧
    deltaFree (viewed { playing with producer := 4096 }) 2 = 0 ∧
    (s.views[(2 : Slot)].step = some st ∧ findCommand s st.serial = some (0, ⟨0, desc 0x32 2 0 [], false⟩)) := by
  decide +kernel

theorem test_stop :
    let t := stopView (viewed playing) 2 .watch 3
    t.views[(2 : Slot)].state = .held ∧ t.views[(2 : Slot)].ctx.watchDevice = 3 ∧
      hasCause t.ports[(0 : PortId)].causes .viewStopped = true ∧
      t.bytesAt (Config.deltaEntry 2 0) 2 = [3, 4] ∧ t.bytesAt (Config.deltaEntry 2 0 + 17) 2 = [3, 0] := by decide +kernel

/-- `s` with the ring DOWN. -/
def ringDownOf (s : State) : State := { s with ring := { s.ring with up := false } }

theorem witness_RunStepAndHold :
    let d := desc 0x30 2 0 [1, 0]
    let e := desc 0x32 2 0 [0, 0, 0]
    let h := desc 0x31 2 0 []
    (∀ x ∈ [watching, viewed playing, viewed stalled],
      (NamesView (given x d) 0 d 2 ∧ Taken (given x d) 0 .run 0 d) ∧
      (NamesView (given x e) 0 e 2 ∧ Taken (given x e) 0 .step 0 e) ∧
      (NamesView (given x h) 0 h 2 ∧ Taken (given x h) 0 .hold 0 h ∧ x.views[(2 : Slot)].step = none ∧ x.ring.up = true)) ∧
    Moving (given (viewed stalled) h).views[(2 : Slot)] ∧ ¬ Moving (given watching h).views[(2 : Slot)] := by
  unfold Taken NamesView Moving; decide +kernel

theorem witness_RunStepAndHold_down :
    let d := desc 0x30 2 0 [1, 0]
    let e := desc 0x32 2 0 [0, 0, 0]
    let s := ringDownOf watching
    (NamesView (given s d) 0 d 2 ∧ Taken (given s d) 0 .run 0 d ∧ (given s d).ring.up = false) ∧
    (NamesView (given s e) 0 e 2 ∧ Taken (given s e) 0 .step 0 e ∧ (given s e).ring.up = false) := by
  unfold Taken NamesView; decide +kernel

/-- RUN FORWARD PACED: the first frame's read is asked for in class A. -/
theorem test_run :
    gives (exec (.run 0) (given watching (desc 0x30 2 0 [0, 0]))) (fun t =>
      t.views[(2 : Slot)].state == .running && t.arbiter.waiting == [⟨.view 2, .a, .frameRead, false⟩] &&
      t.ports[(0 : PortId)].inFlight == []) = true := by decide +kernel

/-- At the base, RUN BACKWARD is stopped with WINDOW_END. -/
theorem test_run_backward_at_base :
    gives (exec (.run 0) (given (viewed { watching.views[(2 : Slot)] with ctx := {} }) (desc 0x30 2 0 [1, 0]))) (fun t =>
      t.views[(2 : Slot)].state == .held && t.views[(2 : Slot)].ctx.lastStop == .windowEnd) = true := by decide +kernel

theorem test_hold :
    gives (exec (.hold 0) (given (viewed delayed) (desc 0x31 2 0 []))) (fun t =>
      t.views[(2 : Slot)].state == .held && t.views[(2 : Slot)].timer == none && t.views[(2 : Slot)].ctx.lastStop == .holdCmd &&
      t.ports[(0 : PortId)].causes == 0 && t.byteAt (Config.completionEntry 0 0 + 16) == 1) = true := by decide +kernel

/-- STEP 0 is clamped to 1, and reads in class B. -/
theorem test_step :
    gives (exec (.step 0) (given watching (desc 0x32 2 0 [0, 0, 0]))) (fun t =>
      t.views[(2 : Slot)].ctx.budget == 1 && t.views[(2 : Slot)].step == some ⟨0, 0, true⟩ &&
      t.arbiter.waiting == [⟨.view 2, .b, .frameRead, false⟩] && t.ports[(0 : PortId)].produced == 0) = true := by
  decide +kernel

/-- `watching` SEALED. -/
def sealedWatching : State := { watching with journal := { watching.journal with state := .sealed } }

theorem witness_FramesAndEdges :
    let c : ViewContext := { cursor := 1, width := 10000 }
    let b : ViewContext := { cursor := 3, direction := .backward }
    (watching.journal.committed ≤ watching.dram.journal.length ∧ c.cursor < windowLimit watching c ∧
      c.direction = .forward) ∧
    (windowBase watching b < b.cursor ∧ b.cursor ≤ watching.journal.committed) := by decide +kernel

/-- Each place of a RUNNING view: within its window, at its base, and at its limit in each of three journals. -/
theorem witness_FramesAndEdges_forms :
    let back : ViewContext := { cursor := 1, direction := .backward }
    let base : ViewContext := { cursor := 0, direction := .backward }
    let limit : ViewContext := { cursor := 3 }
    let short : ViewContext := { cursor := 2, windowEnd := some 20000 }
    (windowBase watching back < back.cursor) ∧ (base.cursor ≤ windowBase watching base) ∧
    (watching.journal.state ≠ .rebuilding ∧ windowLimit watching limit ≤ limit.cursor ∧
      watching.journal.committed ≤ windowLimit watching limit ∧ watching.journal.state ≠ .sealed) ∧
    (windowLimit watching short ≤ short.cursor ∧ windowLimit watching short < watching.journal.committed) ∧
    (sealedWatching.journal.state = .sealed ∧
      windowLimit sealedWatching limit = sealedWatching.journal.committed) := by decide +kernel

/-- Entries 20,000 and 30,000 make one frame at width 10,000, and it is final once the journal is SEALED. -/
theorem test_frame_extends :
    let c : ViewContext := { cursor := 1, width := 10000 }
    forwardCount watching c = 2 ∧ frameFinal watching c 2 = false ∧ frameFinal sealedWatching c 2 = true := by decide +kernel

/-- View 2 waiting AT_EDGE, with or without a frame. -/
def edged (s : State) (f : Option Frame) (c : ViewContext) : State :=
  s.setView 2 { playing with frame := f, atEdge := true, ctx := c }

/-- A HELD view that is carried, and a RUNNING one; one that waits; one that does neither. -/
theorem witness_CarriesAndEdges :
    let c : ViewContext := { cursor := 2, cursorTime := 50000, windowStart := 50000 }
    (∀ x ∈ [viewed { watching.views[(2 : Slot)] with ctx := c }, viewed { playing with frame := none, ctx := c }],
      (x.views[(2 : Slot)].state = .held ∨ x.views[(2 : Slot)].state = .running) ∧ x.views[(2 : Slot)].ctx.cursor = 2 ∧
      (entryAt x 2).time < x.views[(2 : Slot)].ctx.windowStart ∧ x.ring.up = true) ∧
    ((edged watching none { cursor := 2 }).views[(2 : Slot)].state = .running ∧
      (edged watching none { cursor := 2 }).views[(2 : Slot)].atEdge = true ∧
      ¬ (entryAt (edged watching none { cursor := 2 }) 2).time < 0) ∧
    (watching.views[(2 : Slot)].state = .held ∧ watching.views[(2 : Slot)].ctx.cursor ≠ 2) := by decide +kernel

/-- A frameless view whose limit has risen, one whose window ends below the count, one of a SEALED journal and one that
goes on waiting; a frame that is not final, one that is without a delay, and one with. -/
theorem witness_CarriesAndEdges_edge :
    let short : ViewContext := { cursor := 2, windowEnd := some 20000 }
    let f := fun (g : Option Nat) => (⟨1, 1, .a, g, .atEdge⟩ : Frame)
    2 < windowLimit watching { cursor := 2 } ∧
    (windowLimit watching short ≤ 2 ∧ windowLimit watching short < watching.journal.committed) ∧
    (windowLimit sealedWatching { cursor := 3 } ≤ 3 ∧ sealedWatching.journal.state = .sealed ∧
      windowLimit sealedWatching { cursor := 3 } = sealedWatching.journal.committed) ∧
    (watching.journal.state ≠ .sealed ∧ watching.journal.committed ≤ windowLimit watching { cursor := 3 }) ∧
    frameFinal watching { cursor := 2 } (frameCount watching { cursor := 2 }) = false ∧
    frameFinal sealedWatching { cursor := 2 } (frameCount sealedWatching { cursor := 2 }) = true ∧
    (let s := edged sealedWatching (some (f none)) { cursor := 2 }
     frameDelay s s.views[(2 : Slot)] (f none) = 0) ∧
    (let s := edged sealedWatching (some (f (some 10000))) { cursor := 2 }
     frameDelay s s.views[(2 : Slot)] (f (some 10000)) ≠ 0) := by decide +kernel

/-- The entry at position 2 is applied to the HELD view, whose cursor follows (R79). -/
theorem test_carry :
    let t := viewAtCommit 2 (viewed { watching.views[(2 : Slot)] with
      ctx := { cursor := 2, cursorTime := 50000, windowStart := 50000 } }) 2
    t.views[(2 : Slot)].ctx.cursor = 3 ∧ t.views[(2 : Slot)].ctx.counter = 2 ∧
      t.dram.viewImages[(2 : Slot)].at 0 = ⟨.opened, false⟩ := by decide +kernel

/-- View 2's frame read is on the channel, with the context given. -/
def frameReading (s : State) (armed : Option Bool) (gap : Option Nat) (c : ViewContext) : State :=
  let w : View := { playing with armed := armed, ctx := c, frame := some ⟨0, 0, .a, gap, .reading⟩ }
  granted (s.setView 2 w) (.view 2) .a .frameRead

theorem witness_FrameReadEnds :
    let beyond := frameReading watching (some true) none { cursor := 1, breakTime := some 15000 }
    let early := frameReading watching none none { cursor := 2 }
    let first := frameReading sealedWatching none none { cursor := 1 }
    let later := frameReading sealedWatching (some false) (some 10000) { cursor := 1 }
    (frameReadGranted beyond 2 = true ∧ frameBeyond beyond beyond.views[(2 : Slot)].ctx = true ∧
      beyond.views[(2 : Slot)].armed = some true) ∧
    (frameReadGranted early 2 = true ∧ frameNeeds early early.views[(2 : Slot)].ctx ≤ 64 ∧
      frameFinal early early.views[(2 : Slot)].ctx (frameCount early early.views[(2 : Slot)].ctx) = false) ∧
    (frameReadGranted first 2 = true ∧ frameNeeds first first.views[(2 : Slot)].ctx ≤ 64 ∧
      frameFinal first first.views[(2 : Slot)].ctx (frameCount first first.views[(2 : Slot)].ctx) = true ∧
      frameDelay first first.views[(2 : Slot)] ⟨0, 0, .a, none, .reading⟩ = 0) ∧
    (frameReadGranted later 2 = true ∧
      frameDelay later later.views[(2 : Slot)] ⟨0, 0, .a, some 10000, .reading⟩ ≠ 0) := by decide +kernel

/-- A gap of 10,000 at speed 0 loads the 1 µs tap with 10,000. -/
theorem test_frameReadEnd_delays :
    gives (exec (.frameReadEnd 2) (frameReading sealedWatching (some false) (some 10000) { cursor := 1 })) (fun t =>
      t.views[(2 : Slot)].timer == some ⟨1, 10000, 0⟩ &&
      (t.views[(2 : Slot)].frame.map Frame.count) == some 1) = true := by decide +kernel

theorem test_frameReadEnd_atEdge :
    gives (exec (.frameReadEnd 2) (frameReading watching none none { cursor := 2 })) (fun t =>
      t.views[(2 : Slot)].atEdge && t.views[(2 : Slot)].ctx.cursor == 2 &&
      t.byteAt (Config.viewStatusAddr 2 + 9) == 1) = true := by decide +kernel

/-- A break armed, one set during the delay; a frame with room for its record, and one without. -/
theorem witness_TimerEventsReleaseFrame :
    let brk := viewed { delayed with armed := some true, ctx := { cursor := 1, breakTime := some 15000 } }
    let told : Frame := ⟨1, 1, .a, none, .delaying true⟩
    let full := viewed { delayed with producer := 4096 }
    (brk.views[(2 : Slot)].armed = some true ∧ frameBeyond brk brk.views[(2 : Slot)].ctx = true) ∧
    (told.phase = .delaying true ∧ frameBeyond brk brk.views[(2 : Slot)].ctx = true) ∧
    (deltaDistance (viewed delayed) 2 = 0 ∧ frameBeyond (viewed delayed) (viewed delayed).views[(2 : Slot)].ctx = false) ∧
    (frameBeyond full full.views[(2 : Slot)].ctx = false ∧ deltaDistance full 2 = 4096 ∧
      4096 - deltaDistance full 2 <
        (frameEntries full full.views[(2 : Slot)].ctx 1).countP (passesFilter full full.views[(2 : Slot)].ctx)) := by
  decide +kernel

/-- The timers of IdleStepCountsMicrosecond's witness, and a slot whose timer is IDLE. -/
theorem witness_TimerEventsReleaseFrame_rows :
    let bare := viewed { delayed with frame := none }
    ¬ SegmentOver watching 2 ∧
    (∀ x ∈ [(reloadingTimer, (⟨4096, 1, 14⟩ : Countdown)), (viewed delayed, ⟨1, 1, 0⟩), (bare, ⟨1, 1, 0⟩)],
      x.1.views[(2 : Slot)].timer = some x.2 ∧ SegmentOver x.1 2 ∧ ∀ y : Slot, y ≠ 2 → ¬ SegmentOver x.1 y) ∧
    (viewed delayed).views[(2 : Slot)].frame = some ⟨1, 1, .a, none, .delaying false⟩ ∧
    bare.views[(2 : Slot)].frame = none := by
  simp only [segmentOver_any]; decide +kernel

/-- A PACED frame with a gap, at speeds 1 and −1; one without a gap; an entry that passes the filter and one that does
not. -/
theorem witness_GapsAndChangeRecords :
    let w := fun (k : Int) => { playing with ctx := { cursor := 1, speed := k } }
    let f : Frame := ⟨1, 1, .a, some 10000, .reading⟩
    (∀ k ∈ [(1 : Int), -1], f.cls = .a ∧ (w k).ctx.mode = .paced ∧ (w k).step = none) ∧
    (frameDelay watching (w 1) f = 5000 ∧ frameDelay watching (w (-1)) f = 20000 ∧
      frameDelay watching (w 1) { f with gapFrom := none } = 0) ∧
    passesFilter watching { cursor := 1 } (entry 20000 1 .opened .unknown) = true ∧
    passesFilter watching { cursor := 1, kinds := 0 } (entry 20000 1 .opened .unknown) = false := by decide +kernel

theorem test_timerSegmentReload :
    gives (exec (.timerSegmentReload 2) reloadingTimer) (fun t =>
      t.views[(2 : Slot)].timer == some ⟨4096, 65536, 13⟩) = true := by decide +kernel

/-- The CHANGE record of entry 1: OPEN to device 1 from UNKNOWN, and the frame number 2 (R175). -/
theorem test_pacingTimerExpiry :
    gives (exec (.pacingTimerExpiry 2) (viewed delayed)) (fun t =>
      t.views[(2 : Slot)].ctx.cursor == 2 && t.views[(2 : Slot)].ctx.cursorTime == 20000 &&
      t.views[(2 : Slot)].producer == 1 && t.dram.viewImages[(2 : Slot)].at 1 == ⟨.opened, false⟩ &&
      t.bytesAt (Config.deltaEntry 2 0) 13 == [1, 4, 4, 0, 2, 0, 0, 0, 1, 0, 0, 0, 0x20]) = true := by decide +kernel

theorem test_pacingTimerExpiry_stalls :
    gives (exec (.pacingTimerExpiry 2) (viewed { delayed with producer := 4096 })) (fun t =>
      t.views[(2 : Slot)].state == .stalled && t.views[(2 : Slot)].ctx.cursor == 1) = true := by decide +kernel

/-- View 2 about to apply an AMBIGUOUS entry. -/
def unclear : State :=
  { viewed delayed with dram := { watching.dram with journal :=
      [entry 10000 0 .closed .unknown, { entry 20000 1 .opened .unknown with ambiguous := true }] } }

/-- View 2 in the last frame of a STEP. -/
def stepping : State := viewed { delayed with step := some ⟨0, 0, false⟩, ctx := { cursor := 1, budget := 1 } }

/-- Room for the records; a watched device; an AMBIGUOUS entry; a STEP's last frame; a published image. -/
theorem witness_FrameApplied :
    let c : ViewContext := { cursor := 1, watch := [1] }
    let room := viewed { delayed with ctx := c }
    (changeRecords room c 2 (frameEntries room c 1)).length ≤ deltaFree room 2 ∧
    (∃ e ∈ frameEntries room c 1, e.device ∈ c.watch ∧ e.isRepeat = false) ∧
    ((∀ e ∈ frameEntries unclear { c with watch := [] } 1, e.device ∈ ([] : List Nat) → e.isRepeat = true) ∧
      ∃ e ∈ frameEntries unclear { c with watch := [] } 1, e.ambiguous = true) ∧
    (stepping.views[(2 : Slot)].step ≠ none ∧ stepping.views[(2 : Slot)].ctx.budget = 1 ∧
      ∀ e ∈ frameEntries stepping stepping.views[(2 : Slot)].ctx 1,
        e.device ∈ stepping.views[(2 : Slot)].ctx.watch → e.isRepeat = true) := by
  decide +kernel

/-- No stop test holds: a view that only runs, and a STEP with a further frame to go. -/
theorem witness_FrameApplied_goes_on :
    ∀ s ∈ [viewed delayed, stepping.setView 2 { stepping.views[(2 : Slot)] with ctx := { cursor := 1, budget := 2 } }],
      let w := s.views[(2 : Slot)]
      (changeRecords s w.ctx 2 (frameEntries s w.ctx 1)).length ≤ deltaFree s 2 ∧
      (frameEntries s w.ctx 1).find? (fun e => decide (e.device ∈ w.ctx.watch) && !e.isRepeat) = none ∧
      w.ctx.stopAmbiguous = false ∧ ¬ (w.step ≠ none ∧ w.ctx.budget ≤ 1) := by decide +kernel

theorem image_stands (s : State) (v : Slot) (img : Image) (n d : Nat) (hd : d < n) :
    (worded s (Config.imageAddr v) (imageBytes img 0 n)).byteAt (Config.imageAddr v + d) = (img.at d).encode := by
  have len : d < (imageBytes img 0 n).length := by simpa [imageBytes] using hd
  have h := Sparse.get_setRange_inside (d := unlistedByte) s.ring.replica (Config.imageAddr v) d _ len
  refine h.trans ?_
  simp [imageBytes]

/-- View 2 published, with no kind of device passing its filter. -/
def published : State := viewed { delayed with ctx := { cursor := 1, published := true, kinds := 0 } }

/-- `published` with its image in its area. -/
def shown : State := worded published (Config.imageAddr 2) (imageBytes published.dram.viewImages[(2 : Slot)] 0 32768)

theorem shown_records :
    changeRecords shown shown.views[(2 : Slot)].ctx 2 (frameEntries shown shown.views[(2 : Slot)].ctx 1) = [] := by
  decide +kernel

theorem witness_FrameApplied_published :
    (changeRecords shown shown.views[(2 : Slot)].ctx 2 (frameEntries shown shown.views[(2 : Slot)].ctx 1)).length ≤
      deltaFree shown 2 ∧ shown.views[(2 : Slot)].ctx.published = true ∧
      ∀ d < 32768, shown.byteAt (Config.imageAddr 2 + d) = (shown.dram.viewImages[(2 : Slot)].at d).encode := by
  refine ⟨?_, rfl, fun d hd => image_stands published 2 _ 32768 d hd⟩
  rw [shown_records]
  exact Nat.zero_le _

theorem test_frame_watch_stops :
    gives (exec (.pacingTimerExpiry 2) (viewed { delayed with ctx := { cursor := 1, watch := [1] } })) (fun t =>
      t.views[(2 : Slot)].state == .held && t.views[(2 : Slot)].ctx.lastStop == .watch &&
      t.views[(2 : Slot)].ctx.watchDevice == 1) = true := by decide +kernel

/-! ### Witnesses and steps: the channel -/

/-- No class is aged; and class C aged. -/
theorem witness_GrantFollowsPriority :
    (ArbiterSane contending ∧ contending.arbiter.channel = none ∧ contending.arbiter.waiting ≠ []) ∧
    (contending.arbiter.hasWaiting .c = true ∧ ¬ 64 ≤ contending.arbiter.age .a ∧ ¬ 64 ≤ contending.arbiter.age .c) ∧
    (ArbiterSane station ∧ station.arbiter.waiting = []) := by
  refine ⟨⟨arbiter_contending, by decide +kernel, by decide +kernel⟩, by decide +kernel, ⟨?_, ?_⟩, by decide +kernel⟩
  · intro k; cases k <;> decide +kernel
  · intro r h; cases h

/-- `contending` with class C aged. -/
def agedState : State := { contending with arbiter := { contending.arbiter with ageC := 64 } }

theorem witness_GrantFollowsPriority_aged :
    ArbiterSane agedState ∧ agedState.arbiter.hasWaiting .c = true ∧ 64 ≤ agedState.arbiter.age .c := by
  refine ⟨⟨fun k => by cases k <;> decide +kernel, arbiter_contending.2⟩, by decide +kernel, by decide +kernel⟩

/-- Slot 2 was granted last in class A, so slot 6 comes before it (R172). -/
theorem test_dramGrant :
    gives (exec .dramGrant contending) (fun t => t.arbiter.channel == some ⟨.view 6, .a, .frameRead, false⟩ &&
      t.arbiter.turnA == 6 && t.arbiter.ageA == 0 && t.arbiter.ageC == 2) = true := by decide +kernel

/-- A transfer of a requester on the channel that does not end its operation. -/
def within64 (s : State) (w : Requester) (c : RequestClass) (k : RequestKind) : State :=
  { s with arbiter := { s.arbiter with channel := some ⟨w, c, k, false⟩ } }

/-- 70 entries of one time, so that a frame takes two reads. -/
def crowdedFrame : State :=
  let w : View := { playing with ctx := {} }
  { watching with
    journal := { watching.journal with committed := 70 }
    dram := { watching.dram with journal := List.replicate 70 (entry 1 0 .opened .opened) }, views := watching.views.set 2 w }

/-- A request whose end is a row of its own; requests of other blocks; a frame's block that ends its reading, by its size
and by the break, and one that does not. -/
theorem witness_GrantEndsTransfer :
    let brk := viewed { playing with armed := some true, ctx := { cursor := 1, breakTime := some 15000 } }
    (granted watching .commitWriter .c .commitWrite).arbiter.channel = some ⟨.commitWriter, .c, .commitWrite, true⟩ ∧
    (∀ x ∈ [(Requester.view 2, RequestClass.b, RequestKind.seekLoad), (.rebuild, .b, .rebuildRoll),
        (.checkpointWriter, .c, .checkpointWrite)],
      (within64 watching x.1 x.2.1 x.2.2).arbiter.channel = some ⟨x.1, x.2.1, x.2.2, false⟩ ∧ x.2.2 ≠ .frameRead) ∧
    (∀ s ∈ [within64 (viewed playing) (.view 2) .a .frameRead, within64 brk (.view 2) .a .frameRead,
        within64 crowdedFrame (.view 2) .a .frameRead],
      s.arbiter.channel = some ⟨.view 2, .a, .frameRead, false⟩ ∧
      s.views[(2 : Slot)].frame = some ⟨0, 0, .a, none, .reading⟩) ∧
    frameNeeds (viewed playing) playing.ctx ≤ 64 * (0 + 1) ∧
    (brk.views[(2 : Slot)].armed = some true ∧ frameBeyond brk brk.views[(2 : Slot)].ctx = true) ∧
    (crowdedFrame.views[(2 : Slot)].armed = none ∧
      64 * (0 + 1) < frameNeeds crowdedFrame crowdedFrame.views[(2 : Slot)].ctx) := by decide +kernel

/-- `crowdedFrame` with 64 late records and a readout of 64 records, its first read on the channel. -/
def blockRead (isLate : Bool) : State :=
  let s := { crowdedFrame with merge := { crowdedFrame.merge with late := List.replicate 64 (lateAt 1) } }
  within64 { s with readouts := s.readouts.set 0 (some ⟨0, isLate, 0, 64, 0, false, false⟩) } (.readout 0) .d .readout

/-- A load of 600 entries of which 512 have been taken. -/
def secondBlock : State :=
  within64 (reserving station 0x02 (.catalogueLoad ⟨0x3000, 600, 512, 500, 12, 0⟩)) .catalogueWriter .d .catalogueWrite

theorem witness_GrantEndsTransfer_blocks :
    (∀ b ∈ [true, false], (blockRead b).arbiter.channel = some ⟨.readout 0, .d, .readout, false⟩ ∧
      (blockRead b).readouts[(0 : PortId)] = some ⟨0, b, 0, 64, 0, false, false⟩ ∧
      64 ≤ (blockRead b).merge.late.length ∧ 0 + 64 ≤ (blockRead b).dram.journal.length ∧ WithinCapacity (blockRead b)) ∧
    secondBlock.arbiter.channel = some ⟨.catalogueWriter, .d, .catalogueWrite, false⟩ ∧
    secondBlock.journal.reserved = some ⟨0, false, .catalogueLoad ⟨0x3000, 600, 512, 500, 12, 0⟩⟩ := by
  unfold WithinCapacity; decide +kernel

/-- A write of FORMAT's catalogue that is not its last. -/
theorem witness_GrantEndsTransfer_format :
    let s := within64 (reserving station 0x01 (.formatCatalogue 4096)) .catalogueWriter .d .catalogueWrite
    s.arbiter.channel = some ⟨.catalogueWriter, .d, .catalogueWrite, false⟩ ∧
      s.journal.reserved = some ⟨0, false, .formatCatalogue 4096⟩ := by decide +kernel

/-- The second block of a load: the 88 entries left are taken, and the last write is asked for (R7). -/
theorem test_dramGrant_catalogue :
    gives (exec .dramGrant secondBlock) (fun t =>
      (t.journal.reserved.map Reserved.work) == some (.catalogueLoad ⟨0x3000, 600, 600, 588, 12, 0⟩) &&
      t.arbiter.channel == some ⟨.catalogueWriter, .d, .catalogueWrite, true⟩) = true := by decide +kernel

/-! ### Witnesses and steps: ports -/

/-- `station` with one ATTACH of node `n` asking for weight 9 and depth 5. -/
def attaching (s : State) (n : Node) : State := { s with ring := { s.ring with attachQueue := [⟨n, 0x0509⟩] } }

/-- Port 0 at depth 8 with 5 commands buffered. -/
def deep : Port := { bound := some 5, depth := 8, buffer := List.replicate 5 (desc 0x23 2 0 []) }

/-- Every port bound. -/
def allBound : State := { station with ports := Vector.replicate 8 { bound := some 5 } }

theorem witness_AttachBinds :
    (portOf (attaching station 5) 5 = some 0 ∧ (4 < (attaching station 5).ports[(0 : PortId)].depth) ∧
      (attaching station 5).ports[(0 : PortId)].buffer.length ≤ 4) ∧
    (portOf (attaching (ported station deep) 5) 5 = some 0 ∧
      4 < (attaching (ported station deep) 5).ports[(0 : PortId)].buffer.length) ∧
    (portOf (attaching (ported station { bound := some 5 }) 5) 5 = some 0 ∧
      (attaching (ported station { bound := some 5 }) 5).ports[(0 : PortId)].depth ≤ 4) ∧
    (portOf (attaching station 7) 7 = none ∧ (attaching station 7).ports[(2 : PortId)].bound = none ∧
      ∀ j : PortId, j < 2 → (attaching station 7).ports[j].bound ≠ none) ∧
    (portOf (attaching allBound 7) 7 = none ∧ ∀ p : PortId, (attaching allBound 7).ports[p].bound ≠ none) := by
  decide +kernel

/-- Weight 9 becomes 8 and depth 5 becomes 4. -/
theorem test_attach :
    gives (exec .attach (attaching station 7)) (fun t =>
      t.ports[(2 : PortId)] == { bound := some 7, weight := 8, depth := 4 } && t.ring.attachQueue == [] &&
      t.bytesAt (Config.partStatusAddr + 64 + 16) 4 == [1, 7, 8, 4]) = true := by decide +kernel

theorem test_attach_refused :
    gives (exec .attach (attaching allBound 7)) (fun t =>
      t.ring.lastRefused == some 7 && t.byteAt (Config.partStatusAddr + 5) == 135) = true := by decide +kernel

/-- `s` with one DETACH of node `n`. -/
def leaving (s : State) (n : Node) : State := { s with ring := { s.ring with detachQueue := [⟨n, 0⟩] } }

/-- Port 0's detach is in progress, and it owns view 2, source 3 and a parked entry. -/
def detached : State := (parkedBy (sourced watching .streaming) 0).setPort 0 { bound := some 5, detaching := true, head := 7 }

/-- `watching` with a STEP of view 2 that waits, and a depth pending. -/
def stepWaiting : State :=
  let s := given watching (desc 0x32 2 0 [1, 0, 0])
  leaving (s.setPort 0 { s.ports[0] with pendingDepth := some 4, buffer := List.replicate 5 (desc 0x23 2 0 []) }) 5

/-- A STEP begun, one that waits, a pending depth, a sender without a port; the end of a detach. -/
theorem witness_DetachStartsAndEnds :
    portOf (leaving station 5) 5 = some 0 ∧ portOf (leaving station 7) 7 = none ∧
    ((leaving (viewed { playing with step := some ⟨0, 0, false⟩ }) 5).views[(2 : Slot)].ctx.owner = 0 ∧
      (leaving (viewed { playing with step := some ⟨0, 0, false⟩ }) 5).views[(2 : Slot)].step ≠ none) ∧
    (portOf stepWaiting 5 = some 0 ∧ (⟨0, desc 0x32 2 0 [1, 0, 0], false⟩ : InFlight) ∈ stepWaiting.ports[(0 : PortId)].inFlight ∧
      (desc 0x32 2 0 [1, 0, 0]).kind = some .step ∧ stepWaiting.views[(2 : Slot)].ctx.owner = 0 ∧
      stepWaiting.views[(2 : Slot)].state = .held ∧ (∀ x : Slot, stepWaiting.views[x].step = none) ∧
      stepWaiting.ports[(0 : PortId)].pendingDepth = some 4 ∧ stepWaiting.ports[(0 : PortId)].inFlight.length ≤ 4) ∧
    (Canonical detached ∧ detached.ports[(0 : PortId)].detaching = true ∧ detached.ports[(0 : PortId)].inFlight = [] ∧
      ∀ v : Slot, detached.views[v].ctx.owner = 0 → detached.views[v].state ≠ .seeking) := by
  unfold Canonical; decide +kernel

/-- A STEP that waits is ended at once, and the pending depth takes effect (R135, R137). -/
theorem test_detach_waiting :
    gives (exec .detach stepWaiting) (fun t =>
      t.ports[(0 : PortId)].inFlight == [] && t.ports[(0 : PortId)].depth == 4 &&
      t.views[(2 : Slot)].ctx.lastStop == .holdCmd) = true := by decide +kernel

theorem test_detach :
    gives (exec .detach (leaving (ported station deep) 5)) (fun t =>
      t.ports[(0 : PortId)].detaching && t.ports[(0 : PortId)].buffer == [] && fetchState t 0 == .stopped &&
      t.byteAt (Config.portStatusAddr 0 + 1) == 1 && t.ports[(0 : PortId)].bound == some 5) = true := by decide +kernel

theorem test_detachEnd :
    gives (exec (.detachEnd 0) detached) (fun t =>
      t.ports[(0 : PortId)] == { head := 7 } && t.views[(2 : Slot)].state == .free && t.parkedEntry 63 == none &&
      (t.source 3).owner == none && (t.source 3).state == .ended) = true := by decide +kernel

/-- `s` with one REARM of node `n`, port 0 holding a cause set. -/
def rearming (causes : Byte) (n : Node) : State :=
  let s := ported station { bound := some 5, fired := true, causes := causes }
  { s with ring := { s.ring with rearmQueue := [⟨n, 0⟩] } }

theorem witness_RearmSendsCauses :
    portOf (rearming 3 5) 5 = some 0 ∧ portOf (rearming 3 7) 7 = none ∧
    (rearming 3 5).ports[(0 : PortId)].causes ≠ 0 ∧ (rearming 3 5).ring.up = true ∧
    (portOf (rearming 0 5) 5 = some 0 ∧ (rearming 0 5).ports[(0 : PortId)].causes = 0 ∧ (rearming 0 5).ring.up = true) ∧
    portOf (ringDownOf (rearming 3 5)) 5 = some 0 := by decide +kernel

theorem test_rearm :
    gives (exec .rearm (rearming 3 5)) (fun t => t.ports[(0 : PortId)].fired &&
      t.ring.own.contains (.notice 0 5 .attention 3 0)) = true := by decide +kernel

theorem test_rearm_empty :
    gives (exec .rearm (rearming 0 5)) (fun t => !t.ports[(0 : PortId)].fired &&
      t.byteAt (Config.portStatusAddr 0) == 1) = true := by decide +kernel

/-- Port 0 with `x`, its producer word holding `n`, and one KICK of node `k`. -/
def kicked (x : Port) (n : Nat) (k : Node) : State :=
  let s := worded (ported station x) (Config.producerAddr 0) (leBytes 2 n)
  { s with ring := { s.ring with kickQueue := [⟨k, 0⟩] } }

/-- Distances 256 and 257; a port that is not marked; one that is, with room for part of what waits. -/
theorem witness_KickAndFetch :
    let live : Port := { bound := some 5, depth := 2, head := 65535 }
    let halt : Port := { bound := some 5, halted := true, head := 65535 }
    (portOf (kicked live 255 5) 5 = some 0 ∧ portOf (kicked live 255 7) 7 = none ∧ live.halted = false) ∧
    (portOf (kicked halt 255 5) 5 = some 0 ∧
      ((kicked halt 255 5).indexAt (Config.producerAddr 0) - halt.head).toNat ≤ 256) ∧
    (portOf (kicked halt 256 5) 5 = some 0 ∧
      256 < ((kicked halt 256 5).indexAt (Config.producerAddr 0) - halt.head).toNat) ∧
    mayFetch (kicked live 255 5) 0 = false ∧
    (mayFetch (kicked { live with look := true } 255 5) 0 = true ∧
      ((kicked live 255 5).indexAt (Config.producerAddr 0) - live.head).toNat = 256) ∧
    (mayFetch (kicked { live with look := true } 256 5) 0 = true ∧
      ((kicked live 256 5).indexAt (Config.producerAddr 0) - live.head).toNat = 257) := by decide +kernel

theorem test_kick :
    gives (exec .kick (kicked { bound := some 5 } 1 5)) (fun t =>
      t.ports[(0 : PortId)].look && t.ring.kickQueue == [] && fetchState t 0 == .fetching) = true := by decide +kernel

/-- At 257 the port is HALTED at the value read, and RING_INDEX is raised (R141). -/
theorem test_fetch_halts :
    gives (exec (.fetch 0) (kicked { bound := some 5, look := true } 257 5)) (fun t =>
      t.ports[(0 : PortId)].halted && t.ports[(0 : PortId)].haltValue == 257 &&
      hasCause t.ports[(0 : PortId)].causes .ringIndex && t.ports[(0 : PortId)].head == 0) = true := by decide +kernel

/-- Two of three descriptors fit; the head goes round the ring's end, and the port stays marked. -/
theorem test_fetch :
    let s := kicked { bound := some 5, depth := 2, head := 255, look := true } 258 5
    let s := worded s (Config.commandEntry 0 255) (desc 0x23 2 0 []).bytes
    let s := worded s (Config.commandEntry 0 0) (desc 0x24 2 0 []).bytes
    gives (exec (.fetch 0) s) (fun t =>
      t.ports[(0 : PortId)].buffer.map Descriptor.kind == [some .mark, some .park] && t.ports[(0 : PortId)].head == 257 &&
      t.ports[(0 : PortId)].look) = true := by decide +kernel

/-- Ports 0 and 1 each with commands buffered: a MARK and a PARK of one view at port 0, a kind not recognised at port 1. -/
def dispatching (turn : PortId) (count : Nat) : State :=
  let s := { station with dispatcher := ⟨turn, count, 9⟩ }
  (s.setPort 0 { bound := some 5, depth := 2, buffer := [desc 0x23 2 0 [], desc 0x24 2 0 []] }).setPort 1
    { bound := some 2, buffer := [desc 0x99 0 0 []] }

theorem witness_DispatchTakesTurns :
    (∀ q : PortId, unconsumed (dispatching 0 0) q ≤ 256) ∧
    (isCandidate (dispatching 0 0) 0 = true ∧ (dispatching 0 0).dispatcher.count < (dispatching 0 0).ports[(0 : PortId)].weight ∧
      (dispatching 0 0).ports[(0 : PortId)].eligible = some (desc 0x23 2 0 [], [desc 0x24 2 0 []]) ∧
      (desc 0x23 2 0 []).kind ≠ none) ∧
    (isCandidate (dispatching 0 1) 0 = true ∧ ¬ (dispatching 0 1).dispatcher.count < 1 ∧
      (1 : PortId) = (0 : PortId) + 1 + Fin.ofNat 8 0 ∧ isCandidate (dispatching 0 1) 1 = true ∧
      (dispatching 0 1).ports[(1 : PortId)].eligible = some (desc 0x99 0 0 [], []) ∧ (desc 0x99 0 0 []).kind = none ∧
      ∀ q : PortId, q ≤ 1 → ∀ c ∈ (dispatching 0 1).ports[q].inFlight, c.serial ≠ 9) ∧
    (∀ q : PortId, isCandidate station q = false ∧ unconsumed station q ≤ 256) := by decide +kernel

/-- A SEEK and a PARK of view 2 behind a RUN of it in flight, before a CLEAR_CAUSES that conflicts with nothing: it is the
eligible one. -/
theorem witness_FetchDispatchAndOrder :
    let x : Port := { bound := some 5, depth := 8, inFlight := [⟨0, desc 0x30 2 0 [], false⟩]
                      buffer := [desc 0x21 2 0 [], desc 0x24 2 0 [], desc 0x40 0 0 [], desc 0x23 3 0 []] }
    x.eligible = some (desc 0x40 0 0 [], [desc 0x21 2 0 [], desc 0x24 2 0 [], desc 0x23 3 0 []]) ∧
    mayFetch (kicked { x with look := true } 1 5) 0 = true ∧ isCandidate (ported station x) 0 = true := by decide +kernel

theorem test_dispatch :
    gives (exec .dispatch (dispatching 0 0)) (fun t =>
      t.ports[(0 : PortId)].inFlight == [⟨9, desc 0x23 2 0 [], false⟩] && t.dispatcher == ⟨0, 1, 10⟩) = true := by decide +kernel

/-- The turn goes on to port 1, whose command is UNKNOWN_COMMAND. -/
theorem test_dispatch_unknown :
    gives (exec .dispatch (dispatching 0 1)) (fun t =>
      t.dispatcher == ⟨1, 1, 10⟩ && t.ports[(1 : PortId)].inFlight == [] &&
      t.bytesAt (Config.completionEntry 1 0) 4 == [7, 0, 0x99, 9]) = true := by decide +kernel

/-- An ARMED gate, a FIRED one, the ring DOWN, and a port that is not bound or is detaching. -/
theorem witness_CauseFiresArmedGate :
    (station.ports[(0 : PortId)].bound = some 5 ∧ station.ports[(0 : PortId)].detaching = false ∧
      station.ports[(0 : PortId)].fired = false ∧ station.ring.up = true) ∧
    (rearming 3 5).ports[(0 : PortId)].fired = true ∧ (ringDownOf station).ring.up = false ∧
    reports station 2 = false ∧ reports detached 0 = false := by decide +kernel

theorem test_cause :
    let t := raiseCause station 0 .badWrite
    t.ports[(0 : PortId)].causes = 4 ∧ t.ports[(0 : PortId)].fired = true ∧
      t.bytesAt (Config.portStatusAddr 0) 7 = [1, 4, 5, 1, 8, 0, 4] := by decide +kernel

/-- CLEAR_CAUSES of NOTICE_LOST and LATE_RECORDS, and of bit 7, which is ignored. -/
def clearDesc : Descriptor := desc 0x40 0 0 [0xA2]

/-- Port 0 with four causes, one notice lost, and two records not consumed. -/
def clearing : State :=
  let s := ported station { bound := some 5, causes := 0x2B, fired := true, produced := 2, inFlight := [⟨0, clearDesc, false⟩] }
  { s with ring := { s.ring with lossFlags := 4 } }

theorem witness_ClearCausesRewrites :
    Taken clearing 0 .clearCauses 0 clearDesc ∧ unconsumed clearing 0 = 2 := by
  unfold Taken; decide +kernel

theorem test_clearCauses :
    gives (exec (.clearCauses 0) clearing) (fun t =>
      t.ports[(0 : PortId)].causes == 9 && t.ports[(0 : PortId)].fired && t.ring.lossFlags == 0 &&
      t.ports[(0 : PortId)].produced == 3) = true := by decide +kernel

/-- The loss flags go first, then the port's record (R165). -/
theorem test_clearCauses_order :
    gives (exec (.clearCauses 0) clearing) (fun t =>
      t.ring.own.take 2 == [.write 0 Config.partStatusAddr ((partStatusBytes t).take 8) 0,
        .write 0 (Config.portStatusAddr 0) (portStatusBytes (clearing.setPort 0 { clearing.ports[0] with causes := 9 }) 0) 0]) =
      true := by decide +kernel

/-- The ring UP and DOWN; a port that reports, with NOTIFY, and one that is detaching. -/
theorem witness_WritesHandedOverInOrder :
    let d := desc 0x23 2 0 []
    let s := given station d
    let x := s.setPort 0 { s.ports[0] with detaching := true }
    station.ring.up = true ∧ (ringDownOf station).ring.up = false ∧ d.notify = true ∧
    (∀ u ∈ [s, x], findCommand u 0 = some (0, ⟨0, d, false⟩) ∧ u.ports[(0 : PortId)].pendingDepth = none) ∧
    (s.ports[(0 : PortId)].bound = some 5 ∧ s.ports[(0 : PortId)].detaching = false) ∧ reports x 0 = false := by
  decide +kernel

/-- A write of 300 bytes goes as 256 and 44 (R158). -/
theorem test_write_in_packets :
    (station.partWrite 0x3000 (zeros 300)).ring.own =
      [.write 0 0x3000 (zeros 256) 0, .write 0 0x3100 (zeros 44) 0] := by decide +kernel

/-- A consumer word 1 ahead of the producer: 65,535 records. -/
def aheadWord : List Byte := leBytes 2 1 ++ zeros 6

/-- A dispatch; a completion consumer word; a delta consumer word of a HELD view and of a STALLED one; CLEAR_CAUSES; a
delta ring's evaluation. -/
theorem witness_RingIndexRaised :
    let p : Port := { bound := some 5, depth := 2, buffer := [desc 0x40 0 0 []], produced := 257 }
    let c := ported station { p with buffer := [], inFlight := [⟨0, clearDesc, false⟩] }
    let far := viewed { playing with producer := 4097, frame := some ⟨1, 1, .a, none, .delaying false⟩ }
    (reports (ported station p) 0 = true ∧ (ported station p).ports[(0 : PortId)].eligible ≠ none ∧
      256 < unconsumed (ported station p) 0) ∧
    (aheadWord.length = 8 ∧ station.ports[(0 : PortId)].bound = some 5 ∧ station.ports[(0 : PortId)].detaching = false ∧
      (5 : Node) ≠ station.ring.node ∧ station.ring.up = true ∧
      256 < unconsumed (worded station (Config.consumerAddr 0) aheadWord) 0) ∧
    (∀ x ∈ [watching, viewed stalled], x.views[(2 : Slot)].state ≠ .free ∧ x.views[(2 : Slot)].ctx.owner = 0 ∧
      4096 < deltaDistance (worded x (Config.deltaConsumerAddr 0 2) aheadWord) 2) ∧
    (0 < (frameEntries (viewed stalled) stalled.ctx 1).countP (passesFilter (viewed stalled) stalled.ctx)) ∧
    (Taken c 0 .clearCauses 0 clearDesc ∧ 256 < unconsumed c 0 ∧ reports c 0 = true) ∧
    (4096 < deltaDistance far 2 ∧ reports far far.views[(2 : Slot)].ctx.owner = true ∧
      0 < (frameEntries far far.views[(2 : Slot)].ctx 1).countP (passesFilter far far.views[(2 : Slot)].ctx)) := by
  unfold Taken; decide +kernel

/-! ### Witnesses and steps: the ring -/

theorem witness_RingGoesDownAndUp_loss :
    (viewed playing).ring.up = true ∧ Moving (viewed playing).views[(2 : Slot)] ∧
      reports (viewed playing) (viewed playing).views[(2 : Slot)].ctx.owner = true ∧
      ¬ Moving (viewed playing).views[(0 : Slot)] ∧ (ringDownOf station).ring.up = false := by
  unfold Moving; decide +kernel

theorem test_signalLoss :
    gives (exec .signalLoss (viewed playing)) (fun t =>
      !t.ring.up && t.views[(2 : Slot)].state == .held && t.views[(2 : Slot)].ctx.lastStop == .ringDown &&
      t.ports[(0 : PortId)].causes == 1 && !t.ports[(0 : PortId)].fired && t.ring.own == []) = true := by decide +kernel

/-- The boundary hop counts of a ring of 6, the ring DOWN, and queues of 63 and 64. -/
theorem witness_PacketsForwardedQueuedSent :
    station.ring.node = 0 ∧ (1 : Node) ≠ station.ring.node ∧ station.ring.size - 1 ≤ 5 ∧ 4 < station.ring.size - 1 ∧
      station.ring.up = true ∧ (ringDownOf station).ring.up = false ∧ (7 : Node) ≠ station.ring.node ∧
      (List.replicate 63 (QueuedNotice.mk 5 0)).length < 64 ∧ station.ring.attachQueue.length < 64 ∧
      station.ring.detachQueue.length < 64 ∧ station.ring.kickQueue.length < 64 ∧ station.ring.rearmQueue.length < 64 := by
  decide

/-- The 64th notice is queued, the 65th is lost, with its flag and NOTICE_LOST (R161). -/
theorem test_notices :
    let full := fun n => { station with ring := { station.ring with kickQueue := List.replicate n ⟨5, 0⟩ } }
    gives (exec (.packetArrival (.notice 5 0 .kick 0 4)) (full 63)) (fun t =>
      t.ring.kickQueue.length == 64 && t.ring.forward == [.notice 5 0 .kick 0 5] && t.ring.lossFlags == 0) = true ∧
    gives (exec (.packetArrival (.notice 5 0 .kick 0 4)) (full 64)) (fun t =>
      t.ring.kickQueue.length == 64 && t.ring.lossFlags == 4 && t.ports[(0 : PortId)].look &&
      hasCause t.ports[(1 : PortId)].causes .noticeLost) = true := by decide +kernel

/-- Each queue full; a port that is not HALTED, one with a producer word that ends the halt, and one without. -/
theorem witness_FullQueueLosesNotice :
    let full := List.replicate 64 (QueuedNotice.mk 5 0)
    let s := { station with ring := { station.ring with
      attachQueue := full, detachQueue := full, kickQueue := full, rearmQueue := full } }
    let halt := ported station { bound := some 5, halted := true }
    (s.ring.up = true ∧ (5 : Node) ≠ s.ring.node ∧ 4 < s.ring.size - 1 ∧ 64 ≤ s.ring.attachQueue.length ∧
      64 ≤ s.ring.detachQueue.length ∧ 64 ≤ s.ring.kickQueue.length ∧ 64 ≤ s.ring.rearmQueue.length) ∧
    (reports s 0 = true ∧ reports s 2 = false ∧ s.ports[(0 : PortId)].halted = false) ∧
    (halt.ports[(0 : PortId)].halted = true ∧ ¬ 256 < (halt.indexAt (Config.producerAddr 0) - (0 : Index)).toNat) ∧
    256 < ((worded halt (Config.producerAddr 0) (leBytes 2 257)).indexAt (Config.producerAddr 0) - (0 : Index)).toNat := by
  decide +kernel

/-- A write of node 5 to the staging area; the last word of the space below the status half; each word told to a block, with
a sane index and another; a write over every watched word and the words beside them; an address that is not aligned; another port's page; a node without a port. -/
theorem witness_RingWriteAppliedWhole :
    let owner := fun x => pageOwner station x = .node 5
    (0x3000 % 8 = 0 ∧ owner 0x3000 ∧ owner (0x3000 + 256 - 1) ∧ 0x2050 ≤ 0x3000 % 1048576) ∧
    (owner 0x7FFF8 ∧ owner (0x7FFF8 + 8 - 1) ∧ ¬ owner 0x80000) ∧
    (0x1FF8 % 1048576 + 8 ≤ 0x2000 ∧ owner 0x1FF8) ∧
    (owner 0x2000 ∧ 0x2000 = Config.producerAddr 0 ∧
      (ported station { bound := some 5, halted := true }).ports[(0 : PortId)].halted = true) ∧
    (owner 0x2008 ∧ 0x2008 = Config.consumerAddr 0 ∧ unconsumed (worded station 0x2008 (zeros 8)) 0 ≤ 256) ∧
    (0x1FF8 % 8 = 0 ∧ owner (0x1FF8 + 104 - 1) ∧ 0x1FF8 < Config.producerAddr 0 ∧
      Config.deltaConsumerAddr 0 7 + 8 < 0x1FF8 + 104) ∧
    (¬ 256 < (station.indexAt (Config.producerAddr 0) - (0 : Index)).toNat ∧ reports station 0 = true ∧
      256 < ((worded station 0x2000 (leBytes 2 257)).indexAt (Config.producerAddr 0) - (0 : Index)).toNat ∧
      256 < ((0 : Index) - (worded station 0x2008 (leBytes 2 1)).indexAt (Config.consumerAddr 0)).toNat) ∧
    (4096 < deltaDistance (worded (viewed stalled) 0x2020 (leBytes 2 1)) 2 ∧
      4096 < deltaDistance (worded watching 0x2020 (leBytes 2 1)) 2 ∧ watching.views[(2 : Slot)].state = .held) ∧
    (owner 0x2020 ∧ 0x2020 = Config.deltaConsumerAddr 0 2 ∧ (viewed stalled).views[(2 : Slot)].state = .stalled ∧
      (viewed stalled).views[(2 : Slot)].frame = some ⟨1, 1, .a, none, .stalled⟩ ∧
      deltaDistance (worded (viewed stalled) 0x2020 (zeros 8)) 2 ≤ 4096) ∧
    (¬ 0x3004 % 8 = 0 ∧ ¬ owner 0x103000 ∧ portOf station 5 = some 0 ∧ portOf station 7 = none) := by decide +kernel

theorem test_ringWrite :
    gives (exec (.packetArrival (.write 5 0x3000 [1, 2, 3, 4, 5, 6, 7, 8] 0)) station) (fun t =>
      t.bytesAt 0x3000 8 == [1, 2, 3, 4, 5, 6, 7, 8] && t.ports[(0 : PortId)].causes == 0) = true := by decide +kernel

/-- One write over the command producer word and the completion consumer word, 257 and 1: both are told (R157). -/
theorem test_ringWrite_watched_words :
    gives (exec (.packetArrival (.write 5 0x2000 (leBytes 2 257 ++ zeros 6 ++ leBytes 2 1 ++ zeros 6) 0))
        (ported station { bound := some 5, halted := true })) (fun t =>
      t.ports[(0 : PortId)].haltValue == 257 && t.ports[(0 : PortId)].halted && t.ports[(0 : PortId)].causes == 64 &&
      t.indexAt (Config.consumerAddr 0) == 1) = true := by decide +kernel

theorem test_ringWrite_bad :
    gives (exec (.packetArrival (.write 5 0x103000 [1, 2, 3, 4, 5, 6, 7, 8] 0)) station) (fun t =>
      t.bytesAt 0x103000 8 == zeros 8 && t.ports[(0 : PortId)].causes == 4) = true := by decide +kernel

/-- A node within the ring and one outside it; waiting and not waiting for the sync packet. -/
theorem witness_RingGoesDownAndUp :
    let s := State.reset
    let w := { s with ring := { s.ring with signal := true, syncWaiting := true } }
    let o := { s with ring := { s.ring with node := 2 } }
    (s.ring.up = false ∧ s.ring.signal = false ∧ s.ring.node.val < s.ring.size) ∧
    (w.ring.up = false ∧ w.ring.signal = true ∧ w.ring.syncWaiting = true) ∧
    (o.ring.up = false ∧ o.ring.size ≤ o.ring.node.val) ∧
    (reports (ringDownOf station) 0 = true ∧ reports (ringDownOf station) 2 = false) := by decide +kernel

theorem test_signalGained :
    gives (exec .signalGained State.reset) (fun t =>
      t.ring.signal && t.ring.own == [.sync 0 0] && t.ring.syncWaiting && !t.ring.up) = true := by decide +kernel

theorem test_syncTimeout :
    gives (exec .syncTimeout { State.reset with ring := { Ring.reset with signal := true, syncWaiting := true } }) (fun t =>
      t.ring.own == [.sync 0 0] && t.ring.syncWaiting) = true := by decide +kernel

theorem test_sync_returns :
    gives (exec (.packetArrival (.sync 0 6)) (ringDownOf station)) (fun t =>
      t.ring.up && t.ports[(0 : PortId)].causes == 8 && t.ports[(1 : PortId)].fired) = true := by decide +kernel

/-- Both lists, and the latest packet either way. -/
theorem witness_PacketsForwardedQueuedSent_transmit :
    let s := { station with ring := { station.ring with own := [.sync 0 0], forward := [.sync 1 1] } }
    let l := { s with ring := { s.ring with lastOwn := true } }
    (s.ring.own = .sync 0 0 :: [] ∧ s.ring.forward = .sync 1 1 :: [] ∧ s.ring.lastOwn = false) ∧
    (l.ring.forward = .sync 1 1 :: [] ∧ l.ring.lastOwn = true) ∧ (station.ring.own = [] ∧ station.ring.forward = []) := by
  decide +kernel

theorem test_transmitPacket :
    let s := { station with ring := { station.ring with own := [.sync 0 0], forward := [.sync 1 1] } }
    gives (exec .transmitPacket s) (fun t =>
      t.ring.sent == some (.sync 0 0) && t.ring.own == [] && t.ring.forward == [.sync 1 1] && t.ring.lastOwn) = true := by
  decide +kernel

end Sys2Proof.Tests
end

section
/-! PROOFS. The time alignment of a record (R24 to R28): the rounding of the drift correction, and the aligned time with
its clamps and its uncertainty. -/

namespace Sys2Proof.Machine

/-! ### The rounding of the drift correction (R26) -/

/-- The rounding acts on the magnitude alone. -/
theorem roundHalfAway_natAbs (x : Int) : (roundHalfAway x).natAbs = (x.natAbs + 500000000) / 1000000000 := by
  unfold roundHalfAway
  dsimp only
  split <;> omega

theorem roundHalfAway_nonneg {x : Int} (h : 0 ≤ x) : 0 ≤ roundHalfAway x := by
  unfold roundHalfAway
  rw [if_neg (by omega)]
  omega

theorem roundHalfAway_neg (x : Int) : roundHalfAway (-x) = -roundHalfAway x := by
  unfold roundHalfAway
  rw [Int.natAbs_neg]
  rcases lt_trichotomy x 0 with neg | rfl | pos
  · rw [if_neg (by omega), if_pos neg, neg_neg]
  · rfl
  · rw [if_pos (by omega), if_neg (by omega)]

theorem roundHalfAway_nonpos {x : Int} (h : x ≤ 0) : roundHalfAway x ≤ 0 := by
  have mirrored := roundHalfAway_nonneg (x := -x) (by omega)
  rw [roundHalfAway_neg] at mirrored
  omega

/-- The correction that R27 subtracts, taken back out of the study time. -/
theorem correction_of_studyNs (p : AlignParams) (raw : Nat) :
    p.anchorTime * 1000 + elapsedNs p raw + p.offsetUs * 1000 - studyNs p raw =
      roundHalfAway (elapsedNs p raw * p.driftPpb) := by
  unfold studyNs
  ring

/-- Settles O8: the magnitude of the rounding bounds it from both sides, and its mirror symmetry carries the sign. -/
theorem driftCorrectionRounding : Obligations.DriftCorrectionRounding := by
  intro p raw x c
  have correction : c = roundHalfAway x := correction_of_studyNs p raw
  have magnitude : c.natAbs = (x.natAbs + 500000000) / 1000000000 := by rw [correction, roundHalfAway_natAbs]
  refine ⟨by omega, by omega, fun h => ?_, fun h => ?_, roundHalfAway_neg x, fun noDrift => ?_⟩
  · rw [correction]; exact roundHalfAway_nonneg h
  · rw [correction]; exact roundHalfAway_nonpos h
  · have still : x = 0 := by simp [x, noDrift]
    rw [correction, still]; rfl

/-! ### The aligned time and its uncertainty (R25, R27, R28) -/

/-- The smallest integer at or above a quotient is the one within one divisor of it. -/
theorem ceilDiv_eq_of_bounds {a b k : Nat} (above : a ≤ k * b) (least : k * b < a + b) : ceilDiv a b = k :=
  Nat.div_eq_of_lt_le (by omega) (by rw [Nat.succ_mul]; omega)

/-- The nearest microsecond, an exact half rounded up. -/
theorem nearestMicrosecond_eq_of_bounds {ns : Int} {t : Nat} (low : (t : Int) * 1000 ≤ ns + 500)
    (high : ns + 500 < ((t : Int) + 1) * 1000) : nearestMicrosecond ns = t := by
  unfold nearestMicrosecond
  omega

/-- Beyond 2^60 ns nothing is carried further (R25). -/
theorem align_beyond {p : AlignParams} {raw : Nat} (h : Config.maxElapsed < (elapsedNs p raw).natAbs) :
    align p raw = ⟨if elapsedNs p raw < 0 then 0 else Config.maxTime, Config.maxUncertainty, true⟩ :=
  if_pos h

/-- Within 2^60 ns the time is the study time held to the timeline, flagged where it was held (R27), and the uncertainty
does not depend on it (R28). -/
theorem align_within {p : AlignParams} {raw : Nat} (h : (elapsedNs p raw).natAbs ≤ Config.maxElapsed) :
    align p raw = {
      time := if studyNs p raw < 0 then 0 else min (nearestMicrosecond (studyNs p raw)) Config.maxTime
      unc := min (rawUncertainty p raw) Config.maxUncertainty
      clamped := decide (studyNs p raw < 0 ∨ Config.maxTime < nearestMicrosecond (studyNs p raw)) } := by
  unfold align
  simp only [if_neg (Nat.not_lt.mpr h)]
  by_cases negative : studyNs p raw < 0
  · simp [negative]
  · by_cases late : Config.maxTime < nearestMicrosecond (studyNs p raw)
    · simp [negative, late, Nat.min_eq_right late.le]
    · simp [negative, late, Nat.min_eq_left (Nat.not_lt.mp late)]

/-- Settles O9, from the two sides of 2^60 ns. -/
theorem alignedTimeAndUncertainty : Obligations.AlignedTimeAndUncertainty := by
  intro p raw n
  refine ⟨align_beyond, fun within => ?_⟩
  rw [align_within within]
  refine ⟨fun negative => ?_, fun nonnegative t low high => ?_, fun k above least => ?_⟩
  · simp [negative]
  · have rounded := nearestMicrosecond_eq_of_bounds low high
    simp [rounded, Int.not_lt.mpr nonnegative, Config.maxTime]
  · have drift := ceilDiv_eq_of_bounds above least
    simp only [rawUncertainty, Config.maxUncertainty]
    rw [drift]

end Sys2Proof.Machine
end

section
/-! PROOFS. Batches: the checks of LOAD_BATCH in their order (R52), and the two fates of a raw record in ALIGN_RECORD (R20
to R23, R30, R31). -/

namespace Sys2Proof.Machine

/-! ### The checks of LOAD_BATCH (R52) -/

/-- The records asked for by the batch header at the descriptor's position. -/
def batchAsked (s : State) (p : PortId) (d : Descriptor) : Nat :=
  readField s.ring.replica (stagingAddr p d.position + 2) 2

/-- The result of the first check of LOAD_BATCH that fails, in R52's order. -/
def batchRefusal (s : State) (p : PortId) (d : Descriptor) : Option Result :=
  let src := s.source d.target
  if s.journal.state ≠ .building then some .badState
  else if 255 < d.target ∨ Config.stagingBytes < 8 * d.position + 16 ∨
    readField s.ring.replica (stagingAddr p d.position) 2 ≠ d.target then some .badTarget
  else if src.owner = none then some .badState
  else if src.owner ≠ some p then some .sourceOwned
  else if src.state ≠ .defined ∧ src.state ≠ .streaming then some .badState
  else if batchCount d.position (batchAsked s p d) = 0 then some .empty
  else none

/-- LOAD_BATCH completes with the first check that fails, and hands its batch over where none does. -/
theorem exec_loadBatch {s : State} {n : Nat} {p : PortId} {d : Descriptor} (taken : Taken s n .loadBatch p d)
    (free : reservationHeld s = false) : exec (.loadBatch n) s = .next ((batchRefusal s p d).elim
      { markStarted s n with batches := s.batches ++ [⟨n, p, d.target, stagingAddr p d.position + 16,
          batchCount d.position (batchAsked s p d),
          decide (batchCount d.position (batchAsked s p d) < batchAsked s p d), 0, 0, 0, false⟩] }
      fun r => complete s n r 0 0 0) := by
  change execLoadBatch n s = _
  unfold execLoadBatch batchRefusal batchAsked
  rw [withJournalCommand_taken taken free]
  simp only [ite_or]
  split_ifs <;> rfl

/-- A check that fails decides the result, and nothing else changes. -/
theorem loadBatch_refused {s : State} {n : Nat} {p : PortId} {d : Descriptor} {r : Result}
    (taken : Taken s n .loadBatch p d) (free : reservationHeld s = false) (refused : batchRefusal s p d = some r) :
    Completes (.loadBatch n) s s n p d r 0 0 0 :=
  completes_of_eq (c := ⟨n, d, false⟩) (by rw [exec_loadBatch taken free, refused]; rfl) taken.1

/-- The first check: the journal takes a batch while it is BUILDING. -/
theorem batchRefusal_of_not_building {s : State} (p : PortId) (d : Descriptor) (h : s.journal.state ≠ .building) :
    batchRefusal s p d = some .badState := if_pos h

/-- The second: the position and the header name a source. -/
theorem batchRefusal_of_bad_header {s : State} {p : PortId} {d : Descriptor} (building : s.journal.state = .building)
    (h : 255 < d.target ∨ Config.stagingBytes < 8 * d.position + 16 ∨
      readField s.ring.replica (stagingAddr p d.position) 2 ≠ d.target) : batchRefusal s p d = some .badTarget := by
  unfold batchRefusal
  rw [if_neg (not_not.mpr building), if_pos h]

/-- Past both, the checks on the source and on the count are left. -/
theorem batchRefusal_of_header {s : State} {p : PortId} {d : Descriptor} {src : Source} (named : s.source d.target = src)
    (building : s.journal.state = .building) (target : d.target ≤ 255)
    (room : 8 * d.position + 16 ≤ Config.stagingBytes)
    (header : readField s.ring.replica (stagingAddr p d.position) 2 = d.target) : batchRefusal s p d =
      if src.owner = none then some .badState
      else if src.owner ≠ some p then some .sourceOwned
      else if src.state ≠ .defined ∧ src.state ≠ .streaming then some .badState
      else if batchCount d.position (batchAsked s p d) = 0 then some .empty
      else none := by
  unfold batchRefusal
  rw [if_neg (not_not.mpr building), if_neg (by simp only [header]; omega), named]

/-! ### The steps of ALIGN_RECORD (R20 to R23, R30, R31) -/

/-- max_time_seen of a record that follows, the absent one counting as 0 (R30). -/
theorem seenTime_eq (m : Option Nat) (t : Nat) : seenTime m t = some (max (m.getD 0) t) := by
  cases m with
  | none => simp [seenTime]
  | some x => rfl

/-- The state codes are 0 to 4 (R3). -/
theorem SwitchState.ofCode_eq_none_iff (code : Nat) : SwitchState.ofCode code = none ↔ 4 < code := by
  unfold SwitchState.ofCode
  split <;> simp_all
  omega

/-- A code above 4 is taken as UNKNOWN and counts as repaired (R23). -/
theorem repairState_eq (code : Nat) :
    repairState code = ((SwitchState.ofCode code).getD .unknown, decide (4 < code)) := by
  have known := SwitchState.ofCode_eq_none_iff code
  unfold repairState
  cases found : SwitchState.ofCode code with
  | none => simp [known.mp found]
  | some st =>
    have low : ¬ 4 < code := fun high => by simp [known.mpr high] at found
    simp [low]

/-- The source after the first two steps of R20: it streams, and its sequence check is made (R21). -/
theorem sequenceCheck_streaming (src : Source) (seq : Nat) :
    sequenceCheck (if src.state = .defined then { src with state := .streaming } else src) seq = { src with
      state := if src.state = .defined then .streaming else src.state
      nextSeq := max src.nextSeq (min (seq + 1) 4294967295)
      counters := { src.counters with
        missing := if src.nextSeq < seq then min (src.counters.missing + (seq - src.nextSeq)) 4294967295
          else src.counters.missing } } := by
  by_cases first : src.state = .defined
  · simp only [if_pos first]; rfl
  · simp only [if_neg first]; rfl

/-- The source after a record that names no device: streaming, checked, and the record counted as rejected (R22). -/
def Source.afterRejected (src : Source) (r : RawRecord) : Source :=
  let checked := sequenceCheck (if src.state = .defined then { src with state := .streaming } else src) r.seq
  { checked with counters := { checked.counters with rejected := raise32 checked.counters.rejected 1 } }

/-- The source after a record aligned to `t`: streaming, checked, max_time_seen moved on, and the record counted as
loaded (R30). -/
def Source.afterAligned (src : Source) (r : RawRecord) (t : Nat) : Source :=
  let checked := sequenceCheck (if src.state = .defined then { src with state := .streaming } else src) r.seq
  { checked with
    maxTime := seenTime checked.maxTime t
    counters := { checked.counters with loaded := raise32 checked.counters.loaded 1 } }

theorem Source.afterRejected_eq (src : Source) (r : RawRecord) : src.afterRejected r = { src with
    state := if src.state = .defined then .streaming else src.state
    nextSeq := max src.nextSeq (min (r.seq + 1) 4294967295)
    counters := { src.counters with
      missing := if src.nextSeq < r.seq then min (src.counters.missing + (r.seq - src.nextSeq)) 4294967295
        else src.counters.missing
      rejected := min (src.counters.rejected + 1) 4294967295 } } := by
  unfold Source.afterRejected
  rw [sequenceCheck_streaming]
  rfl

theorem Source.afterAligned_eq (src : Source) (r : RawRecord) (t : Nat) : src.afterAligned r t = { src with
    state := if src.state = .defined then .streaming else src.state
    nextSeq := max src.nextSeq (min (r.seq + 1) 4294967295)
    maxTime := some (max (src.maxTime.getD 0) t)
    counters := { src.counters with
      missing := if src.nextSeq < r.seq then min (src.counters.missing + (r.seq - src.nextSeq)) 4294967295
        else src.counters.missing
      loaded := min (src.counters.loaded + 1) 4294967295 } } := by
  unfold Source.afterAligned
  simp only [sequenceCheck_streaming, seenTime_eq]
  rfl

/-- The record handed to the Merge Unit, with its flags from the source as it was before the record (R23, R31). -/
theorem arrivalOf_eq (b : Batch) (src : Source) (r : RawRecord) (t : Aligned) : arrivalOf b src r t = {
    batch := b.serial, device := r.device, state := (SwitchState.ofCode r.state).getD .unknown
    witness := {
      src := b.source, seq := r.seq, time := t.time, unc := t.unc, origin := Origin.ofCode r.origin, order := 0
      flags := ⟨decide (src.nextSeq < r.seq), decide (r.seq < src.nextSeq), t.clamped, decide (4 < r.state)⟩ } } := by
  unfold arrivalOf
  rw [repairState_eq]

/-- The raw record that a batch takes next (R52). -/
def Batch.nextRecord (b : Batch) (s : State) : RawRecord := readRaw s.ring.replica (b.addr + 16 * b.taken)

section
variable {s : State} {n : Nat} {b : Batch} (found : findBatch s n = some b) (waiting : b.handed = false)
  (left : b.taken < b.count)
include found waiting left

/-- ALIGN_RECORD on a record that names no device (R22): the batch goes on, or completes with its last record. -/
theorem exec_alignRecord_rejected (unlisted : s.journal.deviceCount ≤ (b.nextRecord s).device) :
    exec (.alignRecord n) s = .next (
      let u := s.setSource b.source ((s.source b.source).afterRejected (b.nextRecord s))
      let c := { b with taken := b.taken + 1, rejected := b.rejected + 1 }
      if b.count ≤ b.taken + 1 then completeBatch u c false else setBatch u c) := by
  change execAlignRecord n s = _
  unfold execAlignRecord
  simp only [found, waiting, Bool.false_or, decide_eq_true_eq, if_neg (Nat.not_le.mpr left)]
  exact congrArg Host.Outcome.next (if_pos unlisted)

/-- ALIGN_RECORD on any other record (R20): it is aligned and handed over, and the Merge Unit goes on. -/
theorem exec_alignRecord_aligned (listed : (b.nextRecord s).device < s.journal.deviceCount) :
    exec (.alignRecord n) s = .next (
      let src := s.source b.source
      let r := b.nextRecord s
      let t := align src.params r.raw
      let u := setBatch (s.setSource b.source (src.afterAligned r t.time)) { b with taken := b.taken + 1, handed := true }
      journalProceeds { u with merge := { u.merge with handed := u.merge.handed ++ [arrivalOf b src r t] } }) := by
  change execAlignRecord n s = _
  unfold execAlignRecord
  simp only [found, waiting, Bool.false_or, decide_eq_true_eq, if_neg (Nat.not_le.mpr left)]
  exact congrArg Host.Outcome.next (if_neg (Nat.not_le.mpr listed))

end

/-- Settles O18: LOAD_BATCH by its first failing check, ALIGN_RECORD by whether the record names a device. -/
theorem batchesAligned : Obligations.BatchesAligned := by
  refine ⟨fun s n p d taken free => ?_, fun s n b found waiting left => ?_, fun s n b found waiting left => ?_⟩
  · intro header asked count src ends
    have refused : ∀ {r}, batchRefusal s p d = some r → ends r := loadBatch_refused taken free
    refine ⟨fun h => refused (batchRefusal_of_not_building p d h), fun building => ⟨fun bad => ?_, ?_⟩⟩
    · refine refused (batchRefusal_of_bad_header building (bad.imp_right (Or.imp_left fun h => ?_)))
      simp only [Config.stagingBytes]
      omega
    intro target room named
    have rest := batchRefusal_of_header (src := src) rfl building target (by simp only [Config.stagingBytes]; omega) named
    refine ⟨fun unowned => refused (rest.trans (if_pos unowned)), fun q owned other => refused ?_,
      fun owned closed => refused ?_, fun owned opened => ?_⟩
    · simp [rest, owned, other]
    · rcases closed with closed | closed <;> simp [rest, owned, closed]
    · have counted : batchRefusal s p d = if count = 0 then some .empty else none := by
        rw [rest, if_neg (by simp [owned]), if_neg (by simp [owned]), if_neg (by tauto)]
        rfl
      refine ⟨fun empty => refused (counted.trans (if_pos empty)), fun nonempty => ?_⟩
      rw [exec_loadBatch taken free, counted, if_neg nonempty]
      rfl
  · intro r src unlisted u
    have run := exec_alignRecord_rejected found waiting left unlisted
    rw [Source.afterRejected_eq] at run
    refine ⟨fun more => ?_, fun last p c dispatched => ?_⟩
    · rw [run, if_neg (by omega)]
      rfl
    · refine completes_of_eq (run.trans ?_) ((findCommand_of_ports rfl _).trans dispatched)
      rw [if_pos (by omega)]
      rfl
  · intro r src a listed
    rw [exec_alignRecord_aligned found waiting left listed]
    simp only [Source.afterAligned_eq, arrivalOf_eq]
    rfl

end Sys2Proof.Machine
end

section
/-! PROOFS. The start of a due checkpoint's write (R64 to R66): what a thinned table reads as, what the taking of a slot
and the thinning change, and the count and the interval that the part status page shows (R159). -/

namespace Sys2Proof.Machine

/-! ### The pairs of a table in canonical form -/

section
variable {α : Type} [DecidableEq α] {d : α} {m : List (Nat × α)} {k : Nat}

/-- Each pair of a canonical table is what its number reads as: the numbers do not repeat. -/
theorem Sparse.get_of_mem {x : α} (wf : Sparse.wf d m = true) (h : (k, x) ∈ m) : Sparse.get d m k = x := by
  obtain ⟨rising, -⟩ := (Sparse.wf_iff d m).mp wf
  clear wf
  induction m with
  | nil => simp at h
  | cons c m ih =>
    rw [List.pairwise_cons] at rising
    unfold Sparse.get at ih ⊢
    rw [lookup_cons_pair]
    rcases List.mem_cons.mp h with rfl | rest
    · simp
    · rw [if_neg (by have := rising.1 _ rest; omega)]
      exact ih rest rising.2

omit [DecidableEq α] in
/-- A number that no pair has reads as an unlisted one. -/
theorem Sparse.get_of_unlisted (h : ∀ x, (k, x) ∉ m) : Sparse.get d m k = d := by
  have unlisted : m.lookup k = none :=
    List.lookup_eq_none_iff.mpr fun c hc => by
      rw [bne_iff_ne]
      rintro rfl
      exact h c.2 hc
  simp [Sparse.get, unlisted]

/-- A table whose values are changed by `g`, those that read as an unlisted number left out, reads as `g` says. -/
theorem Sparse.get_map_filter (g : α → α) (hg : g d = d) (wf : Sparse.wf d m = true) :
    Sparse.get d ((m.map fun c => (c.1, g c.2)).filter fun c => c.2 != d) k = g (Sparse.get d m k) := by
  have wf' : Sparse.wf d ((m.map fun c => (c.1, g c.2)).filter fun c => c.2 != d) = true :=
    Sparse.wf_map_filter d m (fun c => g c.2) _ (by simp) wf
  have listed : ∀ y, (k, y) ∈ (m.map fun c => (c.1, g c.2)).filter (fun c => c.2 != d) ↔
      (∃ x, (k, x) ∈ m ∧ g x = y) ∧ y ≠ d := by
    simp
  by_cases h : ∃ x, (k, x) ∈ m
  · obtain ⟨x, hx⟩ := h
    rw [Sparse.get_of_mem wf hx]
    by_cases kept : g x = d
    · rw [kept]
      refine Sparse.get_of_unlisted fun y hy => ?_
      obtain ⟨⟨x', hx', rfl⟩, ne⟩ := (listed y).mp hy
      rw [← Sparse.get_of_mem wf hx', Sparse.get_of_mem wf hx] at ne
      exact ne kept
    · exact Sparse.get_of_mem wf' ((listed _).mpr ⟨⟨x, hx, rfl⟩, kept⟩)
  · push Not at h
    rw [Sparse.get_of_unlisted h, hg]
    exact Sparse.get_of_unlisted fun y hy => by
      obtain ⟨⟨x, hx, -⟩, -⟩ := (listed y).mp hy
      exact h x hx

/-- A write that brings in and takes out no value that counts keeps the number of those that do. -/
theorem Sparse.countP_set (f : α → Bool) (v : α) (wf : Sparse.wf d m = true) (before : f (Sparse.get d m k) = false)
    (after : f v = false) : (Sparse.set d m k v).countP (fun c => f c.2) = m.countP fun c => f c.2 := by
  have written : (Sparse.cells d k [v]).countP (fun c => f c.2) = 0 := by
    unfold Sparse.cells
    split <;> simp [Sparse.cells, after]
  have above : (m.filter fun c => decide (k + 1 ≤ c.1)).countP (fun c => f c.2) =
      (m.filter fun c => !decide (c.1 < k)).countP fun c => f c.2 := by
    rw [List.countP_filter, List.countP_filter]
    refine List.countP_congr fun c hc => ?_
    have there : c.1 = k → f c.2 = false := by
      rintro rfl
      rwa [Sparse.get_of_mem wf hc] at before
    by_cases e : c.1 = k
    · simp [there e]
    · have side : k + 1 ≤ c.1 ↔ ¬ c.1 < k := by omega
      simp [side]
  unfold Sparse.set Sparse.setRange
  rw [List.countP_append, List.countP_append, written, List.length_singleton, above,
    List.countP_eq_countP_filter_add m _ fun c => decide (c.1 < k)]
  simp

end

/-! ### The taking of a slot (R64, R65) -/

/-- The lowest FREE slot without a pin is WRITING, without a pin still, and its write begins (R64). -/
theorem takeFreeSlot_of_lowest {s : State} {k : Nat} (q : Nat) (lowest : lowestFreeSlot s = some k) :
    takeFreeSlot s q =
      beginCheckpointWrite (s.setSlot k { state := .writing, pos := q, pins := 0 }) ⟨k, q, false⟩ := by
  obtain ⟨-, ⟨-, pins⟩, -⟩ := (lowestFreeSlot_eq_some s k).mp lowest
  unfold takeFreeSlot
  simp only [lowest]
  rw [← pins]

theorem takeFreeSlot_of_none {s : State} (q : Nat) (waits : lowestFreeSlot s = none) : takeFreeSlot s q = s := by
  unfold takeFreeSlot
  simp only [waits]

theorem beginCheckpointWrite_slot (s : State) (w : CheckpointWrite) (j : Nat) :
    (beginCheckpointWrite s w).slot j = s.slot j := rfl

/-- What the taking of a slot changes: the slot, the write in flight, the due checkpoint and the requests. -/
theorem takeFreeSlot_takes {s : State} {k : Nat} (q : Nat) (lowest : lowestFreeSlot s = some k) :
    takeFreeSlot s q = { s with
      directory := { s.directory with
        slots := (takeFreeSlot s q).directory.slots, write := some ⟨k, q, false⟩, due := none }
      arbiter := s.arbiter.submit .checkpointWriter (requests .checkpointWriter .c .checkpointWrite 16 true) } ∧
    (takeFreeSlot s q).slot k = { state := .writing, pos := q, pins := 0 } ∧
    ∀ j, j ≠ k → (takeFreeSlot s q).slot j = s.slot j := by
  rw [takeFreeSlot_of_lowest q lowest]
  refine ⟨rfl, ?_, fun j hj => ?_⟩
  · rw [beginCheckpointWrite_slot, State.setSlot_slot, if_pos rfl]
  · rw [beginCheckpointWrite_slot, State.setSlot_slot, if_neg hj]

/-- A slot that goes from FREE to WRITING is not counted before or after (R61). -/
theorem checkpointCount_takeFreeSlot {s : State} (q : Nat) (wf : Sparse.wf {} s.directory.slots = true) :
    checkpointCount (takeFreeSlot s q) = checkpointCount s := by
  cases lowest : lowestFreeSlot s with
  | none => rw [takeFreeSlot_of_none q lowest]
  | some k =>
    obtain ⟨-, ⟨free, -⟩, -⟩ := (lowestFreeSlot_eq_some s k).mp lowest
    rw [takeFreeSlot_of_lowest q lowest]
    refine Sparse.countP_set (fun x : CheckpointSlot => decide (x.state = .inUse)) _ wf ?_ rfl
    change decide ((s.slot k).state = .inUse) = false
    rw [free]
    rfl

/-- The taking of a slot leaves the shown count and interval up to date (R159). -/
theorem takeFreeSlot_keeps_directoryShown {s : State} (q : Nat) (wf : Sparse.wf {} s.directory.slots = true)
    (shown : DirectoryShown s) : DirectoryShown (takeFreeSlot s q) := by
  have frame : ∃ x w u a, takeFreeSlot s q = { s with directory := ⟨x, s.directory.interval, w, u⟩, arbiter := a } := by
    cases lowest : lowestFreeSlot s with
    | none => exact ⟨_, _, _, _, takeFreeSlot_of_none q lowest⟩
    | some k => exact ⟨_, _, _, _, (takeFreeSlot_takes q lowest).1⟩
  have counted := checkpointCount_takeFreeSlot q wf
  obtain ⟨x, w, u, a, frame⟩ := frame
  have fields : partStatusBytes (takeFreeSlot s q) = partStatusBytes s := by
    unfold partStatusBytes
    rw [counted, frame]
  unfold DirectoryShown PageShows Stands State.bytesAt at shown ⊢
  rw [fields, frame]
  exact shown

/-! ### Thinning (R66) -/

/-- Each listed slot for which `f` holds is freed, and listed on only where it is pinned. -/
theorem freeSlots_slots (s : State) (f : CheckpointSlot → Bool) : (freeSlots s f).directory.slots =
    (s.directory.slots.map fun c => (c.1, if f c.2 then c.2.freed else c.2)).filter fun c => c.2 != {} := by
  have pairs : (fun c : Nat × CheckpointSlot => if f c.2 then (c.1, c.2.freed) else c) =
      fun c => (c.1, if f c.2 then c.2.freed else c.2) := by
    funext c
    split <;> rfl
  rw [← pairs]
  rfl

/-- Every slot for which `f` holds is freed, and no other slot changes. -/
theorem freeSlots_slot {s : State} (f : CheckpointSlot → Bool) (wf : Sparse.wf {} s.directory.slots = true) (k : Nat) :
    (freeSlots s f).slot k = if f (s.slot k) then (s.slot k).freed else s.slot k := by
  unfold State.slot
  rw [freeSlots_slots]
  exact Sparse.get_map_filter (fun x : CheckpointSlot => if f x then x.freed else x) (ite_self _) wf

theorem freeSlots_wf {s : State} (f : CheckpointSlot → Bool) (wf : Sparse.wf {} s.directory.slots = true) :
    Sparse.wf {} (freeSlots s f).directory.slots = true := by
  rw [freeSlots_slots]
  exact Sparse.wf_map_filter _ _ (fun c => if f c.2 then c.2.freed else c.2) _ (by simp) wf

/-- What thinning changes: the slots, the interval and the word of the part status page. -/
theorem thin_eq (s : State) : thin s = { s with
    ring := { s.ring with replica := (thin s).ring.replica, own := (thin s).ring.own }
    directory := { s.directory with slots := (thin s).directory.slots, interval := 2 * s.directory.interval } } := rfl

theorem thin_shown (s : State) : DirectoryShown (thin s) := writeDirectoryWord_shown _

theorem thin_wf {s : State} (wf : Sparse.wf {} s.directory.slots = true) :
    Sparse.wf {} (thin s).directory.slots = true :=
  freeSlots_wf (fun x => x.state == .inUse && x.pos / s.directory.interval % 2 == 1) wf

/-- The checkpoints at odd multiples of the interval are freed, with their pins kept. -/
theorem thin_slot {s : State} (wf : Sparse.wf {} s.directory.slots = true) (k : Nat) :
    (thin s).slot k = if (s.slot k).state = .inUse ∧ (s.slot k).pos / s.directory.interval % 2 = 1
      then { state := .free, pos := 0, pins := (s.slot k).pins } else s.slot k := by
  refine (freeSlots_slot (fun x => x.state == .inUse && x.pos / s.directory.interval % 2 == 1) wf k).trans ?_
  simp only [Bool.and_eq_true, beq_iff_eq]
  rfl

/-- After thinning the slots that can be taken are those that were FREE and those freed, without a pin. -/
theorem thin_slot_open_iff {s : State} (wf : Sparse.wf {} s.directory.slots = true) (k : Nat) :
    (((thin s).slot k).state = .free ∧ ((thin s).slot k).pins = 0) ↔
      ((s.slot k).state = .free ∨
        ((s.slot k).state = .inUse ∧ (s.slot k).pos / s.directory.interval % 2 = 1)) ∧ (s.slot k).pins = 0 := by
  rw [thin_slot wf]
  split
  next odd => simp [odd]
  next odd => simp only [odd, or_false]

/-! ### CHECKPOINT_WRITE_START (R64 to R66) -/

/-- A due checkpoint takes a slot, after thinning where 1,024 are IN_USE. -/
theorem exec_checkpointWriteStart {s : State} {q : Nat} (due : s.directory.due = some q)
    (write : s.directory.write = none) :
    exec .checkpointWriteStart s = .next (takeFreeSlot (if checkpointCount s = 1024 then thin s else s) q) := by
  change execCheckpointWriteStart s = _
  unfold execCheckpointWriteStart
  rw [due, write]
  rfl

/-- Settles O27: a slot is taken from the directory as it stands, or from the thinned one. -/
theorem checkpointWriteStarts : Obligations.CheckpointWriteStarts := by
  intro s q canonical due write
  obtain ⟨-, -, -, wf, -⟩ := canonical
  have run := exec_checkpointWriteStart due write
  refine ⟨fun few k hk free pins least => ?_, fun few pinned => ?_, fun full => ?_⟩
  · rw [if_neg few] at run
    exact ⟨_, run, takeFreeSlot_takes q ((lowestFreeSlot_eq_some s k).mpr ⟨hk, ⟨free, pins⟩, least⟩)⟩
  · rw [run, if_neg few, takeFreeSlot_of_none q ((lowestFreeSlot_eq_none s).mpr pinned)]
  intro odd open_ thinned
  rw [if_pos full] at run
  have opened : ∀ k < 1024, (((thin s).slot k).state = .free ∧ ((thin s).slot k).pins = 0) ↔ open_ k :=
    fun k hk => (thin_slot_open_iff wf k).trans (by simp only [open_, hk, true_and]; rfl)
  refine ⟨_, run, ?_, takeFreeSlot_keeps_directoryShown q (thin_wf wf) (thin_shown s), fun k hk least => ?_,
    fun closed => ?_⟩
  · cases lowest : lowestFreeSlot (thin s) with
    | none => rw [takeFreeSlot_of_none q lowest]; rfl
    | some k => rw [takeFreeSlot_of_lowest q lowest]; rfl
  · have lowest : lowestFreeSlot (thin s) = some k := (lowestFreeSlot_eq_some _ k).mpr
      ⟨hk.1, (opened k hk.1).mpr hk, fun j hj => (opened j (hj.trans hk.1)).not.mpr (least j hj)⟩
    obtain ⟨frame, taken, others⟩ := takeFreeSlot_takes q lowest
    refine ⟨by rw [frame], by rw [frame], taken, fun j hj => (others j hj).trans (thin_slot wf j), by rw [frame]; rfl⟩
  · have waits : lowestFreeSlot (thin s) = none :=
      (lowestFreeSlot_eq_none _).mpr fun k hk => (opened k hk).not.mpr (closed k)
    rw [takeFreeSlot_of_none q waits]
    exact ⟨write, due, rfl, thin_slot wf⟩

end Sys2Proof.Machine
end

section
/-! PROOFS. Writes of the part as lists: what the local replica holds after several writes in a row, which bytes they
leave, and the packets they hand over (R153, R158). -/

namespace Sys2Proof.Machine

/-! ### Several writes in a row -/

/-- `s` with the part's writes `ws` made in order: addresses with their bytes. -/
def State.wrote (s : State) (ws : List (Nat × List Byte)) : State :=
  { s with ring := { s.ring with
      replica := ws.foldl (fun m w => replicaWrite m w.1 w.2) s.ring.replica
      own := if s.ring.up then s.ring.own ++ writesOf s.ring.node ws else s.ring.own } }

theorem writesOf_append (n : Node) (ws xs : List (Nat × List Byte)) :
    writesOf n (ws ++ xs) = writesOf n ws ++ writesOf n xs := List.flatMap_append

@[simp] theorem wrote_nil (s : State) : s.wrote [] = s := by
  simp [State.wrote, writesOf]

theorem partWrite_eq_wrote (s : State) (a : Nat) (bs : List Byte) : s.partWrite a bs = s.wrote [(a, bs)] := by
  simp [State.partWrite, State.wrote, writesOf]

@[simp] theorem wrote_wrote (s : State) (ws xs : List (Nat × List Byte)) : (s.wrote ws).wrote xs = s.wrote (ws ++ xs) := by
  cases up : s.ring.up <;> simp [State.wrote, List.foldl_append, writesOf_append, up]

theorem foldl_partWrite_eq_wrote {α : Type} (f : α → Nat × List Byte) (l : List α) (s : State) :
    l.foldl (fun s x => s.partWrite (f x).1 (f x).2) s = s.wrote (l.map f) := by
  induction l generalizing s with
  | nil => simp
  | cons x l ih => rw [List.foldl_cons, ih, partWrite_eq_wrote, wrote_wrote]; rfl

theorem wrote_own {s : State} (up : s.ring.up = true) (ws : List (Nat × List Byte)) :
    (s.wrote ws).ring.own = s.ring.own ++ writesOf s.ring.node ws := if_pos up

@[simp] theorem wrote_views (s : State) (ws : List (Nat × List Byte)) : (s.wrote ws).views = s.views := rfl
@[simp] theorem wrote_ports (s : State) (ws : List (Nat × List Byte)) : (s.wrote ws).ports = s.ports := rfl
@[simp] theorem wrote_dram (s : State) (ws : List (Nat × List Byte)) : (s.wrote ws).dram = s.dram := rfl
@[simp] theorem wrote_journal (s : State) (ws : List (Nat × List Byte)) : (s.wrote ws).journal = s.journal := rfl
@[simp] theorem wrote_directory (s : State) (ws : List (Nat × List Byte)) : (s.wrote ws).directory = s.directory := rfl
@[simp] theorem wrote_arbiter (s : State) (ws : List (Nat × List Byte)) : (s.wrote ws).arbiter = s.arbiter := rfl

theorem wrote_setView (s : State) (ws : List (Nat × List Byte)) (v : Slot) (x : View) :
    (s.wrote ws).setView v x = (s.setView v x).wrote ws := rfl

@[simp] theorem setView_setView (s : State) (v : Slot) (x y : View) : (s.setView v x).setView v y = s.setView v y := by
  simp [State.setView]

/-- `t` holds the packets of `s` and further ones behind them. -/
def HoldsMore (s t : State) : Prop := ∃ more, t.ring.own = s.ring.own ++ more

theorem HoldsMore.refl (s : State) : HoldsMore s s := ⟨[], by simp⟩

theorem HoldsMore.trans {s t u : State} (h : HoldsMore s t) (k : HoldsMore t u) : HoldsMore s u := by
  obtain ⟨xs, hx⟩ := h
  obtain ⟨ys, hy⟩ := k
  exact ⟨xs ++ ys, by rw [hy, hx, List.append_assoc]⟩

theorem wrote_holdsMore (s : State) (ws : List (Nat × List Byte)) : HoldsMore s (s.wrote ws) := by
  cases up : s.ring.up
  · exact ⟨[], by simp [State.wrote, up]⟩
  · exact ⟨_, wrote_own up ws⟩

theorem atView_wrote (s : State) (ws : List (Nat × List Byte)) (v : Slot) : AtView s (s.wrote ws) v :=
  ⟨rfl, fun _ _ => rfl, fun _ _ => rfl⟩

/-! ### The bytes after several writes -/

theorem wrote_cons_byteAt (s : State) (w : Nat × List Byte) (ws : List (Nat × List Byte)) (a : Nat) :
    (s.wrote (w :: ws)).byteAt a = ((s.partWrite w.1 w.2).wrote ws).byteAt a := rfl

/-- A byte outside every write is unchanged. -/
theorem wrote_byteAt {s : State} {ws : List (Nat × List Byte)} {a : Nat} (outside : ∀ w ∈ ws, ¬ InBytes a w.1 w.2.length) :
    (s.wrote ws).byteAt a = s.byteAt a := by
  induction ws generalizing s with
  | nil => rw [wrote_nil]
  | cons w ws ih =>
    rw [wrote_cons_byteAt, ih fun x hx => outside x (List.mem_cons_of_mem w hx),
      partWrite_byteAt _ _ _ _ (outside w List.mem_cons_self)]

/-- What is written stands where no later write reaches it. -/
theorem wrote_stands {s : State} (before : List (Nat × List Byte)) {a : Nat} {bs : List Byte} {after : List (Nat × List Byte)}
    (apart : ∀ w ∈ after, ∀ x, InBytes x a bs.length → ¬ InBytes x w.1 w.2.length) :
    Stands (s.wrote (before ++ (a, bs) :: after)) a bs := by
  rw [List.append_cons, ← wrote_wrote, ← wrote_wrote, ← partWrite_eq_wrote]
  exact stands_of_byteAt _ _ _ _ (fun x hx => wrote_byteAt fun w hw => apart w hw x hx) (partWrite_stands _ _ _)

theorem wrote_stands_last (s : State) (before : List (Nat × List Byte)) (a : Nat) (bs : List Byte) :
    Stands (s.wrote (before ++ [(a, bs)])) a bs := wrote_stands before (by simp)

/-- The bytes that stand at an address, one by one. -/
theorem Stands.byteAt {s : State} {a : Nat} {bs : List Byte} (h : Stands s a bs) {i : Nat} (hi : i < bs.length) :
    s.byteAt (a + i) = bs[i] := by
  have read : (s.bytesAt a bs.length)[i]'(by simpa [State.bytesAt] using hi) = s.byteAt (a + i) :=
    Sparse.read_getElem _ _ _ _ _ hi
  rw [← read]
  exact List.getElem_of_eq h _

/-- An index word that no write reaches reads as before. -/
theorem indexAt_of_byteAt {s t : State} {a : Nat} (h : ∀ x, InBytes x a 2 → t.byteAt x = s.byteAt x) :
    t.indexAt a = s.indexAt a := by
  unfold State.indexAt readField
  have read : Sparse.read unlistedByte t.ring.replica a 2 = Sparse.read unlistedByte s.ring.replica a 2 :=
    List.ext_getElem (by simp) fun i h1 h2 => by
      have hi : i < 2 := by simpa using h1
      rw [Sparse.read_getElem _ _ _ _ _ hi, Sparse.read_getElem _ _ _ _ _ hi]
      exact h _ ⟨by omega, by omega⟩
  rw [read]

end Sys2Proof.Machine
end

section
/-! PROOFS. Images under entries applied in either direction (R83), and the words of a published image that a revision
writes (R130, R131). -/

namespace Sys2Proof.Machine

/-! ### Entries applied (R83) -/

theorem Image.at_put (img : Image) (k d : Nat) (b : ImageByte) : (img.put k b).at d = if d = k then b else img.at d :=
  Sparse.get_set _ _ _ _ _

/-- An entry applied backward undoes what it did forward, where it holds the byte that stood before it. -/
theorem applyBackward_applyForward {img : Image} {e : Entry} (prior : img.at e.device = ⟨e.priorState, e.priorMark⟩)
    (d : Nat) : ((img.applyForward e).applyBackward e).at d = img.at d := by
  unfold Image.applyForward Image.applyBackward
  rw [Image.at_put, Image.at_put]
  split
  next here => rw [here, prior]
  next => rfl

/-- Entries applied backward to images that agree leave images that agree. -/
theorem rollBackward_congr {img img' : Image} (agree : ∀ d, img.at d = img'.at d) (es : List Entry) (d : Nat) :
    (img.rollBackward es).at d = (img'.rollBackward es).at d := by
  unfold Image.rollBackward
  induction es.reverse generalizing img img' with
  | nil => exact agree d
  | cons e es ih =>
    refine ih fun x => ?_
    unfold Image.applyBackward
    rw [Image.at_put, Image.at_put, agree]

theorem rollForward_concat (img : Image) (es : List Entry) (e : Entry) :
    img.rollForward (es ++ [e]) = (img.rollForward es).applyForward e := by
  simp [Image.rollForward]

theorem rollBackward_concat (img : Image) (es : List Entry) (e : Entry) :
    img.rollBackward (es ++ [e]) = (img.applyBackward e).rollBackward es := by
  simp [Image.rollBackward]

/-- Settles O10, by induction from the last entry: it is the first to be undone. -/
theorem backwardUndoesForward : Obligations.BackwardUndoesForward := by
  intro img es prior d
  induction es using List.reverseRecOn generalizing d with
  | nil => rfl
  | append_singleton es e ih =>
    have last : (img.rollForward es).at e.device = ⟨e.priorState, e.priorMark⟩ := by
      simpa using prior es.length (by simp)
    have earlier : ∀ (i : Nat) (h : i < es.length),
        (img.rollForward (es.take i)).at es[i].device = ⟨es[i].priorState, es[i].priorMark⟩ := fun i h => by
      have whole := prior i (h.trans (by simp))
      rwa [List.take_append_of_le_length h.le, List.getElem_append_left h] at whole
    rw [rollForward_concat, rollBackward_concat, rollBackward_congr (applyBackward_applyForward last)]
    exact ih earlier d

/-- Entries applied in a direction reach the devices they name alone. -/
theorem foldl_applyEntry_at (dir : Direction) (es : List Entry) (img : Image) {d : Nat} (other : d ∉ es.map Entry.device) :
    (es.foldl (applyEntry dir) img).at d = img.at d := by
  induction es generalizing img with
  | nil => rfl
  | cons e es ih =>
    obtain ⟨here, later⟩ : d ≠ e.device ∧ d ∉ es.map Entry.device := by simpa using other
    rw [List.foldl_cons, ih _ later]
    cases dir
    · exact (Image.at_put _ _ _ _).trans (if_neg here)
    · exact (Image.at_put _ _ _ _).trans (if_neg here)

/-! ### The changed words (R131) -/

@[simp] theorem imageBytes_length (img : Image) (d len : Nat) : (imageBytes img d len).length = len := by
  simp [imageBytes]

theorem imageBytes_getElem (img : Image) {d len i : Nat} (hi : i < len) :
    (imageBytes img d len)[i]'(by simpa using hi) = (img.at (d + i)).encode := by
  simp [imageBytes]

theorem mem_insertNumber {n x : Nat} {l : List Nat} : x ∈ insertNumber n l ↔ x = n ∨ x ∈ l := by
  induction l with
  | nil => simp [insertNumber]
  | cons y l ih =>
    unfold insertNumber
    split
    · simp
    · split
      next e => simp [e]
      next => simp [ih, or_left_comm]

theorem insertNumber_sorted {n : Nat} {l : List Nat} (sorted : l.Pairwise (· < ·)) : (insertNumber n l).Pairwise (· < ·) := by
  induction l with
  | nil => simp [insertNumber]
  | cons y l ih =>
    obtain ⟨first, rest⟩ := List.pairwise_cons.1 sorted
    unfold insertNumber
    split
    next lt => exact List.pairwise_cons.2 ⟨fun x hx => by
      rcases List.mem_cons.1 hx with rfl | hx
      · exact lt
      · exact lt.trans (first x hx), sorted⟩
    next nlt =>
      split
      · exact sorted
      next ne => exact List.pairwise_cons.2 ⟨fun x hx => by
        rcases mem_insertNumber.1 hx with rfl | hx
        · omega
        · exact first x hx, ih rest⟩

/-- The words of the devices given, in rising order. -/
theorem deviceWords_spec (ds : List Nat) (ws : List Nat) (sorted : ws.Pairwise (· < ·)) :
    (ds.foldl (fun ws d => insertNumber (d / 8) ws) ws).Pairwise (· < ·) ∧
      ∀ w, w ∈ ds.foldl (fun ws d => insertNumber (d / 8) ws) ws ↔ w ∈ ws ∨ ∃ d ∈ ds, w = d / 8 := by
  induction ds generalizing ws with
  | nil => simpa using sorted
  | cons d ds ih =>
    obtain ⟨rising, members⟩ := ih _ (insertNumber_sorted (n := d / 8) sorted)
    refine ⟨rising, fun w => (members w).trans ?_⟩
    rw [mem_insertNumber]
    simp only [List.mem_cons, exists_eq_or_imp]
    tauto

theorem changedWords_sorted (old new : Image) (ds : List Nat) : (changedWords old new ds).Pairwise (· < ·) :=
  (deviceWords_spec ds [] List.Pairwise.nil).1.filter _

/-- Where two images differ in the devices given alone, the changed words are the words with a byte that differs. -/
theorem mem_changedWords {old new : Image} {ds : List Nat} (same : ∀ d, d ∉ ds → new.at d = old.at d) (w : Nat) :
    w ∈ changedWords old new ds ↔ imageBytes old (8 * w) 8 ≠ imageBytes new (8 * w) 8 := by
  unfold changedWords
  rw [List.mem_filter, (deviceWords_spec ds [] List.Pairwise.nil).2, bne_iff_ne, and_iff_right_iff_imp]
  intro differ
  refine Or.inr ?_
  by_contra unnamed
  push Not at unnamed
  refine differ (List.ext_getElem (by simp) fun i h1 h2 => ?_)
  have hi : i < 8 := by simpa using h1
  rw [imageBytes_getElem _ hi, imageBytes_getElem _ hi, same]
  intro named
  exact unnamed _ named (by omega)

end Sys2Proof.Machine
end

section
/-! PROOFS. What reports to a port reach: causes, completions and pending depths change the ports, bytes below the view
status records, and the packets held behind those already held (R148, R158, R162). -/

namespace Sys2Proof.Machine

/-- `t` is `s` but for the ports, the bytes below the view status records, and packets held behind those of `s`. -/
structure AtPorts (s t : State) : Prop where
  frame : t = { s with ring := { s.ring with replica := t.ring.replica, own := t.ring.own }, ports := t.ports }
  bytes : ∀ a, 0x801000 ≤ a → t.byteAt a = s.byteAt a
  own : HoldsMore s t

theorem AtPorts.refl (s : State) : AtPorts s s := ⟨rfl, fun _ _ => rfl, HoldsMore.refl s⟩

theorem AtPorts.trans {s t u : State} (h : AtPorts s t) (k : AtPorts t u) : AtPorts s u where
  frame := by rw [k.frame, h.frame]
  bytes a ha := (k.bytes a ha).trans (h.bytes a ha)
  own := h.own.trans k.own

theorem AtPorts.views {s t : State} (h : AtPorts s t) : t.views = s.views := by rw [h.frame]
theorem AtPorts.dram {s t : State} (h : AtPorts s t) : t.dram = s.dram := by rw [h.frame]

/-! ### The parts of a report -/

theorem atPorts_partWrite (s : State) {a : Nat} {bs : List Byte} (below : a + bs.length ≤ 0x801000) :
    AtPorts s (s.partWrite a bs) where
  frame := rfl
  bytes x hx := partWrite_byteAt _ _ _ _ (by unfold InBytes; omega)
  own := partWrite_eq_wrote s a bs ▸ wrote_holdsMore s _

theorem atPorts_setPort (s : State) (p : PortId) (x : Port) : AtPorts s (s.setPort p x) :=
  ⟨rfl, fun _ _ => rfl, HoldsMore.refl s⟩

theorem atPorts_sendNotice (s : State) (n : Node) (k : NoticeType) (x : BitVec 32) : AtPorts s (s.sendNotice n k x) where
  frame := by unfold State.sendNotice; split <;> rfl
  bytes _ _ := sendNotice_byteAt _ _ _ _ _
  own := by
    unfold State.sendNotice
    split
    · exact ⟨_, rfl⟩
    · exact HoldsMore.refl s

theorem atPorts_writePortStatus (s : State) (p : PortId) : AtPorts s (s.writePortStatus p) :=
  atPorts_partWrite s (by
    have := p.isLt
    simp only [portStatusBytes_length, Config.portStatusAddr, Config.portBase]
    omega)

theorem atPorts_writeBinding (s : State) (p : PortId) : AtPorts s (s.writeBinding p) :=
  atPorts_partWrite s (by
    have := p.isLt
    simp only [List.length_take, Config.partStatusAddr]
    omega)

/-! ### Causes (R162, R163) -/

theorem atPorts_fireGate (s : State) (p : PortId) : AtPorts s (fireGate s p) := by
  unfold fireGate
  split
  · split
    · exact ((atPorts_sendNotice _ _ _ _).trans (atPorts_setPort _ _ _)).trans (atPorts_writePortStatus _ _)
    · exact AtPorts.refl s
  · exact AtPorts.refl s

theorem atPorts_raiseCause (s : State) (p : PortId) (c : Cause) : AtPorts s (raiseCause s p c) := by
  unfold raiseCause
  split
  · exact ((atPorts_setPort _ _ _).trans (atPorts_writePortStatus _ _)).trans (atPorts_fireGate _ _)
  · exact AtPorts.refl s

@[simp] theorem writePortStatus_ports (s : State) (p : PortId) : (s.writePortStatus p).ports = s.ports := rfl

/-- A gate that acts is FIRED, and its port is otherwise as it was. -/
theorem fireGate_port (s : State) (p : PortId) : ∃ fired, (fireGate s p).ports[p] = { s.ports[p] with fired := fired } := by
  unfold fireGate
  split
  · split
    · refine ⟨true, (State.setPort_get_self _ _ _).trans ?_⟩
      rw [State.sendNotice_ports]
    · exact ⟨_, rfl⟩
  · exact ⟨_, rfl⟩

/-- A cause raised changes the port's gate and cause set alone. -/
theorem raiseCause_port (s : State) (p : PortId) (c : Cause) : ∃ fired causes,
    (raiseCause s p c).ports[p] = { s.ports[p] with fired := fired, causes := causes } ∧
      (reports s p = true → causes = s.ports[p].causes ||| c.mask) := by
  cases bound : reports s p
  · exact ⟨_, _, by rw [show raiseCause s p c = s from if_neg (ne_true_of_eq_false bound)], by simp⟩
  · obtain ⟨fired, gate⟩ := fireGate_port
      ((s.setPort p { s.ports[p] with causes := s.ports[p].causes ||| c.mask }).writePortStatus p) p
    rw [writePortStatus_ports, State.setPort_get_self] at gate
    exact ⟨fired, _, by rw [raiseCause, if_pos (by exact bound), gate], fun _ => rfl⟩

theorem raiseCause_inFlight (s : State) (p q : PortId) (c : Cause) :
    (raiseCause s p c).ports[q].inFlight = s.ports[q].inFlight := by
  by_cases h : q = p
  · obtain ⟨fired, causes, port, -⟩ := raiseCause_port s p c
    rw [h, port]
  · rw [(atPort_raiseCause s p c).2 q h]

theorem raiseCause_reports (s : State) (p q : PortId) (c : Cause) : reports (raiseCause s p c) q = reports s q := by
  unfold reports
  by_cases h : q = p
  · obtain ⟨fired, causes, port, -⟩ := raiseCause_port s p c
    rw [h, port]
  · rw [(atPort_raiseCause s p c).2 q h]

theorem hasCause_or_mask (set : Byte) (c : Cause) : hasCause (set ||| c.mask) c = true := by
  have masked : (set ||| c.mask) &&& c.mask = c.mask := by
    ext i hi
    simp only [BitVec.getElem_and, BitVec.getElem_or]
    cases set[i] <;> cases c.mask[i] <;> rfl
  unfold hasCause
  rw [masked]
  cases c <;> decide

/-- A cause raised on a port that reports is present. -/
theorem raiseCause_hasCause {s : State} {p : PortId} (c : Cause) (bound : reports s p = true) :
    hasCause (raiseCause s p c).ports[p].causes c = true := by
  obtain ⟨fired, causes, port, raised⟩ := raiseCause_port s p c
  rw [port, raised bound]
  exact hasCause_or_mask _ _

/-- A command is found by the commands in flight alone. -/
theorem findCommand_of_inFlight {s u : State} (h : ∀ q : PortId, u.ports[q].inFlight = s.ports[q].inFlight) (n : Nat) :
    findCommand u n = findCommand s n := by
  unfold findCommand
  simp only [h]

/-! ### Completions (R135, R148) -/

theorem atPorts_applyPendingDepth (s : State) (p : PortId) : AtPorts s (applyPendingDepth s p) := by
  unfold applyPendingDepth
  split
  · split
    · exact ((atPorts_setPort _ _ _).trans (atPorts_writePortStatus _ _)).trans (atPorts_writeBinding _ _)
    · exact AtPorts.refl s
  · exact AtPorts.refl s

theorem atPorts_notifyEnd (s : State) (b : Option Node) (d : Descriptor) (i : Index) : AtPorts s (notifyEnd s b d i) := by
  unfold notifyEnd
  split
  · split
    · exact atPorts_sendNotice _ _ _ _
    · exact AtPorts.refl s
  · exact AtPorts.refl s

theorem atPorts_complete (s : State) (n : Nat) (r : Result) (v1 v2 v3 : Nat) : AtPorts s (complete s n r v1 v2 v3) := by
  unfold complete
  split
  · exact AtPorts.refl s
  next p c found =>
    split
    · have record : Config.completionEntry p (s.ports[p].produced.toNat % Config.ringEntries) +
          (completionBytes c.descriptor r v1 v2 v3).length ≤ 0x801000 := by
        have := p.isLt
        simp only [completionBytes_length, Config.completionEntry, Config.portBase, Config.ringEntries]
        omega
      exact ((((atPorts_partWrite s record).trans (atPorts_setPort _ _ _)).trans (atPorts_writePortStatus _ _)).trans
        (atPorts_notifyEnd _ _ _ _)).trans (atPorts_applyPendingDepth _ _)
    · exact ((atPorts_setPort _ _ _).trans (atPorts_writePortStatus _ _)).trans (atPorts_applyPendingDepth _ _)

end Sys2Proof.Machine
end

section
/-! PROOFS. The View Engine's work as one change of the state and one list of writes: status records and counters, marks
and delta records, revisions of a published image, and carries (R79, R121, R124, R127, R130 to R133). -/

namespace Sys2Proof.Machine

/-! ### Where the View Engine writes (R175) -/

theorem viewStatusAddr_bounds (v : Slot) : 0x801000 ≤ Config.viewStatusAddr v ∧ Config.viewStatusAddr v + 64 ≤ 0x900000 := by
  have := v.isLt
  unfold Config.viewStatusAddr
  omega

theorem deltaEntry_bounds (v : Slot) (i : Nat) :
    0x900000 ≤ Config.deltaEntry v (i % 4096) ∧ Config.deltaEntry v (i % 4096) + 32 ≤ 0xA00000 := by
  have := v.isLt
  unfold Config.deltaEntry
  omega

theorem imageAddr_bounds (v : Slot) : 0xA00000 ≤ Config.imageAddr v := Nat.le_add_right _ _

theorem deltaConsumerAddr_bounds (p : PortId) (v : Slot) : Config.deltaConsumerAddr p v + 2 ≤ 0x800000 := by
  have := p.isLt
  have := v.isLt
  unfold Config.deltaConsumerAddr Config.portBase
  omega

/-- Every write lies above the port regions and the part status page. -/
def AbovePorts (ws : List (Nat × List Byte)) : Prop := ∀ w ∈ ws, 0x801000 ≤ w.1

theorem AbovePorts.append {ws xs : List (Nat × List Byte)} (h : AbovePorts ws) (k : AbovePorts xs) : AbovePorts (ws ++ xs) :=
  fun w hw => (List.mem_append.1 hw).elim (h w) (k w)

theorem abovePorts_cons {w : Nat × List Byte} {ws : List (Nat × List Byte)} (h : 0x801000 ≤ w.1) (k : AbovePorts ws) :
    AbovePorts (w :: ws) := fun x hx => (List.mem_cons.1 hx).elim (fun e => e ▸ h) (k x)

theorem abovePorts_nil : AbovePorts [] := fun _ h => absurd h List.not_mem_nil

/-- Writes above the port regions leave every index word that a station writes. -/
theorem wrote_indexAt_deltaConsumer {ws : List (Nat × List Byte)} (above : AbovePorts ws) (s : State) (p : PortId) (v : Slot) :
    (s.wrote ws).indexAt (Config.deltaConsumerAddr p v) = s.indexAt (Config.deltaConsumerAddr p v) :=
  indexAt_of_byteAt fun x hx => wrote_byteAt fun w hw => by
    have := above w hw
    have := deltaConsumerAddr_bounds p v
    unfold InBytes at *
    omega

/-! ### Room in the delta ring (R121) -/

/-- The distance of a delta ring follows from the view's owner and producer index and the consumer word. -/
theorem deltaDistance_congr {s t : State} {v : Slot} (owner : t.views[v].ctx.owner = s.views[v].ctx.owner)
    (producer : t.views[v].producer = s.views[v].producer)
    (word : t.indexAt (Config.deltaConsumerAddr s.views[v].ctx.owner v) =
      s.indexAt (Config.deltaConsumerAddr s.views[v].ctx.owner v)) : deltaDistance t v = deltaDistance s v := by
  unfold deltaDistance deltaConsumer
  rw [owner, producer, word]

theorem deltaFree_congr {s t : State} {v : Slot} (h : deltaDistance t v = deltaDistance s v) : deltaFree t v = deltaFree s v := by
  unfold deltaFree
  rw [h]

theorem deltaDistance_of_free {s : State} {v : Slot} (room : 1 ≤ deltaFree s v) : deltaDistance s v ≤ 4096 := by
  by_contra far
  rw [deltaFree, if_pos (by simpa [Config.deltaEntries] using far)] at room
  omega

theorem deltaFree_of_near {s : State} {v : Slot} (near : deltaDistance s v ≤ 4096) :
    deltaFree s v = 4096 - deltaDistance s v := if_neg (by simpa [Config.deltaEntries] using near)

theorem evaluateRoom_of_near {s : State} {v : Slot} (near : deltaDistance s v ≤ 4096) : evaluateRoom s v = s :=
  if_neg (by simpa [Config.deltaEntries] using near)

theorem atPorts_evaluateRoom (s : State) (v : Slot) : AtPorts s (evaluateRoom s v) := by
  unfold evaluateRoom
  split
  · exact atPorts_raiseCause _ _ _
  · exact AtPorts.refl s

theorem evaluateRoom_inFlight (s : State) (v : Slot) (q : PortId) :
    (evaluateRoom s v).ports[q].inFlight = s.ports[q].inFlight := by
  unfold evaluateRoom
  split
  · exact raiseCause_inFlight _ _ _ _
  · rfl

theorem evaluateRoom_reports (s : State) (v : Slot) (q : PortId) : reports (evaluateRoom s v) q = reports s q := by
  unfold evaluateRoom
  split
  · exact raiseCause_reports _ _ _ _
  · rfl

/-! ### Status records and counters -/

/-- The write of a view's status record (R133). -/
def statusWrite (v : Slot) (w : View) : Nat × List Byte := (Config.viewStatusAddr v, viewStatusBytes w)

/-- The write of a counter word alone (R127). -/
def counterWrite (v : Slot) (value : BitVec 32) : Nat × List Byte :=
  (Config.viewStatusAddr v, leBytes 4 value.toNat ++ zeros 4)

/-- A view with its frame counter raised. -/
def View.counted (w : View) (n : BitVec 32) : View := { w with ctx := { w.ctx with counter := w.ctx.counter + n } }

theorem writeViewStatus_eq (s : State) (v : Slot) : s.writeViewStatus v = s.wrote [statusWrite v s.views[v]] :=
  partWrite_eq_wrote _ _ _

/-- The status record of a view just set. -/
theorem setView_writeViewStatus (s : State) (v : Slot) (x : View) :
    (s.setView v x).writeViewStatus v = (s.setView v x).wrote [statusWrite v x] := by
  rw [writeViewStatus_eq, State.setView_get_self]

theorem stepCounter_eq (s : State) (v : Slot) :
    stepCounter s v = (s.setView v (s.views[v].counted 1)).wrote [counterWrite v (s.views[v].ctx.counter + 1)] := by
  unfold stepCounter State.writeCounter
  rw [partWrite_eq_wrote, State.setView_get_self]
  rfl

theorem counted_counted (w : View) (m n : BitVec 32) : (w.counted m).counted n = w.counted (m + n) := by
  simp [View.counted, BitVec.add_assoc]

theorem abovePorts_status (v : Slot) (w : View) : AbovePorts [statusWrite v w] :=
  abovePorts_cons (viewStatusAddr_bounds v).1 abovePorts_nil

/-- A status record reaches the 64 bytes of its slot alone. -/
theorem wrote_status_byteAt (s : State) (v : Slot) (w : View) {a : Nat} (h : ¬ InBytes a (Config.viewStatusAddr v) 64) :
    (s.wrote [statusWrite v w]).byteAt a = s.byteAt a :=
  wrote_byteAt (by simpa [statusWrite] using h)

theorem wrote_status_stands (s : State) (before : List (Nat × List Byte)) (v : Slot) (w : View) :
    Stands (s.wrote (before ++ [statusWrite v w])) (Config.viewStatusAddr v) (viewStatusBytes w) :=
  wrote_stands_last _ _ _ _

/-! ### Revisions of the image (R127, R130 to R132) -/

/-- The writes of a published view's changed words between the odd and the even counter; none for another view. -/
def revisionWrites (v : Slot) (c : ViewContext) (old new : Image) (devices : List Nat) : List (Nat × List Byte) :=
  if c.published then
    [counterWrite v (c.counter + 1)] ++
      (changedWords old new devices).map (fun i => (Config.imageAddr v + 8 * i, imageBytes new (8 * i) 8)) ++
      [counterWrite v (c.counter + 2)]
  else []

/-- The writes of the whole image between the odd and the even counter. -/
def wholeImageWrites (v : Slot) (c : ViewContext) (img : Image) : List (Nat × List Byte) :=
  [counterWrite v (c.counter + 1), (Config.imageAddr v, imageBytes img 0 32768), counterWrite v (c.counter + 2)]

/-- A revision raises the counter by 2, published or not. -/
theorem reviseImage_eq (s : State) (v : Slot) (old new : Image) (devices : List Nat) :
    reviseImage s v old new devices =
      (s.setView v (s.views[v].counted 2)).wrote (revisionWrites v s.views[v].ctx old new devices) := by
  unfold reviseImage revisionWrites
  dsimp only
  split
  · have words : ∀ t : State, writeImageWords t v new (changedWords old new devices) = t.wrote
        ((changedWords old new devices).map fun i => (Config.imageAddr v + 8 * i, imageBytes new (8 * i) 8)) :=
      fun t => foldl_partWrite_eq_wrote (fun i => (Config.imageAddr v + 8 * i, imageBytes new (8 * i) 8)) _ t
    rw [words, stepCounter_eq s, wrote_wrote, stepCounter_eq, wrote_views, State.setView_get_self, wrote_setView,
      setView_setView, wrote_wrote, counted_counted]
    simp [View.counted, BitVec.add_assoc]
  · rw [wrote_nil]
    rfl

theorem writeWholeImage_eq (s : State) (v : Slot) : writeWholeImage s v =
    (s.setView v (s.views[v].counted 2)).wrote (wholeImageWrites v s.views[v].ctx s.dram.viewImages[v]) := by
  unfold writeWholeImage wholeImageWrites
  dsimp only
  rw [stepCounter_eq s, partWrite_eq_wrote, wrote_wrote, stepCounter_eq, wrote_views, State.setView_get_self, wrote_setView,
    setView_setView, wrote_wrote, counted_counted]
  simp [View.counted, BitVec.add_assoc, Config.imageDevices]

theorem abovePorts_counter (v : Slot) (value : BitVec 32) : AbovePorts [counterWrite v value] :=
  abovePorts_cons (viewStatusAddr_bounds v).1 abovePorts_nil

theorem abovePorts_revision (v : Slot) (c : ViewContext) (old new : Image) (devices : List Nat) :
    AbovePorts (revisionWrites v c old new devices) := by
  unfold revisionWrites
  split
  · refine ((abovePorts_counter v _).append fun w hw => ?_).append (abovePorts_counter v _)
    obtain ⟨i, -, rfl⟩ := List.mem_map.1 hw
    have := imageAddr_bounds v
    dsimp only
    omega
  · exact abovePorts_nil

theorem abovePorts_wholeImage (v : Slot) (c : ViewContext) (img : Image) : AbovePorts (wholeImageWrites v c img) :=
  abovePorts_cons (viewStatusAddr_bounds v).1 (abovePorts_cons ((imageAddr_bounds v).trans' (by decide))
    (abovePorts_counter v _))

/-! ### Carries (R79) -/

/-- A view carried over the entry at its cursor. -/
def View.carried (w : View) : View :=
  { w with ctx := { w.ctx with
      cursor := w.ctx.cursor + 1, cursorTime := w.ctx.windowStart, counter := w.ctx.counter + 2 } }

/-- The writes of a carry. -/
def carryWrites (v : Slot) (w : View) (old : Image) (e : Entry) : List (Nat × List Byte) :=
  revisionWrites v w.ctx old (old.applyForward e) [e.device] ++ [statusWrite v w.carried]

theorem carryView_eq (s : State) (v : Slot) : carryView s v = State.wrote { s with
      views := s.views.set v s.views[v].carried
      dram := { s.dram with viewImages :=
        s.dram.viewImages.set v (s.dram.viewImages[v].applyForward (entryAt s s.views[v].ctx.cursor)) }
      arbiter := s.arbiter.submit (.view v) [⟨.view v, .b, .carry, false⟩, ⟨.view v, .b, .carry, false⟩] }
    (carryWrites v s.views[v] s.dram.viewImages[v] (entryAt s s.views[v].ctx.cursor)) := by
  unfold carryView carryWrites
  dsimp only
  rw [reviseImage_eq, State.setView_get_self, setView_setView, writeViewStatus_eq, wrote_wrote, wrote_views,
    State.setView_get_self]
  rfl

theorem abovePorts_carry (v : Slot) (w : View) (old : Image) (e : Entry) : AbovePorts (carryWrites v w old e) :=
  (abovePorts_revision _ _ _ _ _).append (abovePorts_status _ _)

/-! ### Marks and delta records (R121, R124) -/

@[simp] theorem seekMarkBytes_length (cursor time : Nat) : (seekMarkBytes cursor time).length = 32 :=
  padTo_length _ _ (by simp)

@[simp] theorem stopMarkBytes_length (cause : StopCause) (device : Nat) : (stopMarkBytes cause device).length = 32 :=
  padTo_length _ _ (by simp)

@[simp] theorem changeBytes_length (n pos : Nat) (dir : Direction) (e : Entry) (c : CatalogueEntry) :
    (changeBytes n pos dir e c).length = 32 := padTo_length _ _ (by simp)

/-- Slot `v`'s view after a mark: written where the ring has room, else lost. -/
def markedView (s : State) (v : Slot) : View :=
  if 1 ≤ deltaFree s v then { s.views[v] with producer := s.views[v].producer + 1 }
  else { s.views[v] with lostMarks := holdAt 65535 (s.views[v].lostMarks + 1) }

/-- The writes of a mark and of the status record behind it. -/
def markWrites (s : State) (v : Slot) (bs : List Byte) : List (Nat × List Byte) :=
  (if 1 ≤ deltaFree s v then [(Config.deltaEntry v (s.views[v].producer.toNat % 4096), bs)] else []) ++
    [statusWrite v (markedView s v)]

theorem writeDelta_eq (s : State) (v : Slot) (bs : List Byte) : writeDelta s v bs =
    (s.setView v { s.views[v] with producer := s.views[v].producer + 1 }).wrote
      [(Config.deltaEntry v (s.views[v].producer.toNat % 4096), bs)] := by
  unfold writeDelta
  dsimp only
  rw [partWrite_eq_wrote, wrote_setView]
  rfl

/-- A mark with the status record behind it. -/
theorem writeMark_writeViewStatus (s : State) (v : Slot) (bs : List Byte) : (writeMark s v bs).writeViewStatus v =
    ((evaluateRoom s v).setView v (markedView s v)).wrote (markWrites s v bs) := by
  have views := (atPorts_evaluateRoom s v).views
  unfold writeMark markedView markWrites
  dsimp only
  split
  · rw [writeDelta_eq, writeViewStatus_eq, wrote_wrote, wrote_views, State.setView_get_self, views]
    simp only [markedView, if_pos, *]
  · rw [setView_writeViewStatus, views]
    simp only [markedView, if_false, *]
    rfl

/-- The writes of records into slot `v`'s delta ring, from index `i` on. -/
def recordWrites (v : Slot) (i : Nat) (records : List (List Byte)) : List (Nat × List Byte) :=
  records.zipIdx.map fun x => (Config.deltaEntry v ((i + x.2) % 65536 % 4096), x.1)

theorem recordWrites_cons (v : Slot) (i : Nat) (bs : List Byte) (records : List (List Byte)) :
    recordWrites v i (bs :: records) =
      (Config.deltaEntry v (i % 65536 % 4096), bs) :: recordWrites v ((i + 1) % 65536) records := by
  unfold recordWrites
  rw [List.zipIdx_cons', List.map_cons, List.map_map]
  refine congrArg _ (List.map_congr_left fun x _ => ?_)
  simp only [Function.comp, Prod.map, id]
  rw [show (i + (x.2 + 1)) % 65536 = ((i + 1) % 65536 + x.2) % 65536 by omega]

/-- Records written one after another, the producer index raised by one for each (R121). -/
theorem foldl_writeDelta (v : Slot) (records : List (List Byte)) (s : State) :
    records.foldl (fun s bs => writeDelta s v bs) s =
      (s.setView v { s.views[v] with producer := s.views[v].producer + BitVec.ofNat 16 records.length }).wrote
        (recordWrites v s.views[v].producer.toNat records) := by
  induction records generalizing s with
  | nil =>
    rw [show recordWrites v s.views[v].producer.toNat [] = [] from rfl, wrote_nil, List.foldl_nil]
    simpa using (State.setView_same s v).symm
  | cons bs records ih =>
    have index : (s.views[v].producer + 1).toNat = (s.views[v].producer.toNat + 1) % 65536 := by simp
    have raised : s.views[v].producer + 1 + BitVec.ofNat 16 records.length =
        s.views[v].producer + BitVec.ofNat 16 (records.length + 1) := by
      rw [Nat.add_comm, BitVec.ofNat_add, BitVec.add_assoc]
      rfl
    rw [List.foldl_cons, ih, writeDelta_eq, wrote_views, State.setView_get_self, wrote_setView, setView_setView, wrote_wrote,
      recordWrites_cons, index, raised, List.length_cons, Nat.mod_eq_of_lt s.views[v].producer.isLt]
    rfl

theorem abovePorts_records (v : Slot) (i : Nat) (records : List (List Byte)) : AbovePorts (recordWrites v i records) := by
  intro w hw
  obtain ⟨x, -, rfl⟩ := List.mem_map.1 hw
  exact (deltaEntry_bounds v _).1.trans' (by decide)

end Sys2Proof.Machine
end

section
/-! PROOFS. Stops (R82, R118): the view held, the mark and the status record, the cause, and the end of a STEP in flight. -/

namespace Sys2Proof.Machine

/-! ### The view held -/

/-- A view brought to HELD. -/
def View.held (w : View) : View := { w with state := .held, frame := none, timer := none, atEdge := false }

/-- A view held by a stop. -/
def View.stopped (w : View) (cause : StopCause) (device : Nat) : View := { w.held with ctx := { w.ctx with
  lastStop := cause, watchDevice := if cause = .watch then device else w.ctx.watchDevice } }

theorem discardFrame_eq (s : State) (v : Slot) : discardFrame s v = { s with
    views := s.views.set v { s.views[v] with frame := none, timer := none, atEdge := false }
    arbiter := s.arbiter.withdrawFrame v } := rfl

theorem bringToHeld_eq (s : State) (v : Slot) : bringToHeld s v = { s with
    views := s.views.set v s.views[v].held, arbiter := s.arbiter.withdrawFrame v } := by
  unfold bringToHeld
  rw [discardFrame_eq]
  simp [State.setView, View.held]

/-! ### What a mark leaves (R124) -/

/-- A mark changes the producer index or the lost-mark count alone. -/
theorem markedView_eq (s : State) (v : Slot) : markedView s v = { s.views[v] with
    producer := (markedView s v).producer, lostMarks := (markedView s v).lostMarks } := by
  unfold markedView
  split <;> rfl

theorem markedView_ctx (s : State) (v : Slot) : (markedView s v).ctx = s.views[v].ctx := by rw [markedView_eq]

theorem markedView_of_room {s : State} {v : Slot} (room : 1 ≤ deltaFree s v) :
    markedView s v = { s.views[v] with producer := s.views[v].producer + 1 } := if_pos room

theorem markedView_of_full {s : State} {v : Slot} (full : deltaFree s v = 0) :
    markedView s v = { s.views[v] with lostMarks := min (s.views[v].lostMarks + 1) 65535 } := if_neg (by omega)

theorem markWrites_of_room {s : State} {v : Slot} (room : 1 ≤ deltaFree s v) (bs : List Byte) : markWrites s v bs =
    [(Config.deltaEntry v (s.views[v].producer.toNat % 4096), bs), statusWrite v (markedView s v)] := by
  rw [markWrites, if_pos room]
  rfl

/-- A mark that is written stands in its record of the delta ring. -/
theorem wrote_mark_stands {s : State} {v : Slot} {bs : List Byte} (room : 1 ≤ deltaFree s v) (len : bs.length = 32)
    (t : State) : Stands (t.wrote (markWrites s v bs)) (Config.deltaEntry v (s.views[v].producer.toNat % 4096)) bs := by
  rw [markWrites_of_room room]
  refine wrote_stands [] fun w hw x hx => ?_
  rw [List.mem_singleton.1 hw]
  have := viewStatusAddr_bounds v
  have := deltaEntry_bounds v s.views[v].producer.toNat
  simp only [InBytes, statusWrite, viewStatusBytes_length, len] at *
  omega

theorem AtPorts.stands {s t : State} (h : AtPorts s t) {a : Nat} {bs : List Byte} (above : 0x801000 ≤ a)
    (stands : Stands s a bs) : Stands t a bs :=
  stands_of_byteAt _ _ _ _ (fun x hx => h.bytes x (above.trans hx.1)) stands

/-! ### The parts of a stop (R118) -/

/-- The state with slot `v`'s view held by a stop, before the stop is recorded. -/
def stopHeld (s : State) (v : Slot) (cause : StopCause) (device : Nat) : State :=
  { s with views := s.views.set v (s.views[v].stopped cause device), arbiter := s.arbiter.withdrawFrame v }

/-- The stop with its STOP_MARK and its status record. -/
def stopMarked (s : State) (v : Slot) (cause : StopCause) (device : Nat) : State :=
  (writeMark (stopHeld s v cause device) v (stopMarkBytes cause device)).writeViewStatus v

/-- The stop up to the end of a STEP in flight: VIEW_STOPPED is raised where the cause calls for it. -/
def stopRaised (s : State) (v : Slot) (cause : StopCause) (device : Nat) : State :=
  if cause.raises then raiseCause (stopMarked s v cause device) s.views[v].ctx.owner .viewStopped
  else stopMarked s v cause device

theorem stopHeld_view (s : State) (v : Slot) (cause : StopCause) (device : Nat) :
    (stopHeld s v cause device).views[v] = s.views[v].stopped cause device := State.setView_get_self s v _

theorem stopMarked_eq (s : State) (v : Slot) (cause : StopCause) (device : Nat) : stopMarked s v cause device =
    ((evaluateRoom (stopHeld s v cause device) v).setView v (markedView (stopHeld s v cause device) v)).wrote
      (markWrites (stopHeld s v cause device) v (stopMarkBytes cause device)) := writeMark_writeViewStatus _ _ _

theorem stopMarked_view (s : State) (v : Slot) (cause : StopCause) (device : Nat) :
    (stopMarked s v cause device).views[v] = markedView (stopHeld s v cause device) v := by
  rw [stopMarked_eq, wrote_views, State.setView_get_self]

theorem stopMarked_ports (s : State) (v : Slot) (cause : StopCause) (device : Nat) :
    (stopMarked s v cause device).ports = (evaluateRoom (stopHeld s v cause device) v).ports := by
  rw [stopMarked_eq, wrote_ports]
  rfl

theorem stopView_eq (s : State) (v : Slot) (cause : StopCause) (device : Nat) :
    stopView s v cause device = endStep (stopRaised s v cause device) v cause := by
  have held : (bringToHeld s v).setView v { (bringToHeld s v).views[v] with ctx := { (bringToHeld s v).views[v].ctx with
      lastStop := cause, watchDevice := if cause = .watch then device else (bringToHeld s v).views[v].ctx.watchDevice } } =
      stopHeld s v cause device := by
    rw [bringToHeld_eq]
    simp [State.setView, View.held, View.stopped, stopHeld]
  have owner : (stopMarked s v cause device).views[v].ctx.owner = s.views[v].ctx.owner := by
    rw [stopMarked_view, markedView_ctx, stopHeld_view]
    rfl
  unfold stopView stopRaised
  rw [← owner, stopMarked, ← held]

/-- The cause of a stop changes no view and no byte at or above the view status records. -/
theorem atPorts_stopRaised (s : State) (v : Slot) (cause : StopCause) (device : Nat) :
    AtPorts (stopMarked s v cause device) (stopRaised s v cause device) := by
  unfold stopRaised
  split
  · exact atPorts_raiseCause _ _ _
  · exact AtPorts.refl _

theorem stopRaised_view (s : State) (v : Slot) (cause : StopCause) (device : Nat) :
    (stopRaised s v cause device).views[v] = markedView (stopHeld s v cause device) v := by
  rw [(atPorts_stopRaised s v cause device).views, stopMarked_view]

theorem stopRaised_inFlight (s : State) (v : Slot) (cause : StopCause) (device : Nat) (q : PortId) :
    (stopRaised s v cause device).ports[q].inFlight = s.ports[q].inFlight := by
  have marked : (stopMarked s v cause device).ports[q].inFlight = s.ports[q].inFlight := by
    rw [stopMarked_ports]
    exact evaluateRoom_inFlight (stopHeld s v cause device) v q
  unfold stopRaised
  split
  · rw [raiseCause_inFlight, marked]
  · exact marked

theorem atView_stopHeld (s : State) (v : Slot) (cause : StopCause) (device : Nat) :
    AtView s (stopHeld s v cause device) v := (atView_setView s v _).trans (atView_arbiter _ v _)

theorem atView_stopRaised (s : State) (v : Slot) (cause : StopCause) (device : Nat) :
    AtView s (stopRaised s v cause device) v := by
  have marked : AtView s (stopMarked s v cause device) v :=
    ((atView_stopHeld s v cause device).trans (atView_writeMark _ v _)).trans (atView_partWrite _ v _ _)
  unfold stopRaised
  split
  · exact marked.trans ((atPort_raiseCause _ _ _).atView v)
  · exact marked

/-- What a stop leaves of the rest of the part, but for the arbiter. -/
theorem stopRaised_frame (s : State) (v : Slot) (cause : StopCause) (device : Nat) : stopRaised s v cause device = { s with
    ring := { s.ring with
      replica := (stopRaised s v cause device).ring.replica, own := (stopRaised s v cause device).ring.own }
    ports := (stopRaised s v cause device).ports
    views := s.views.set v (markedView (stopHeld s v cause device) v)
    arbiter := s.arbiter.withdrawFrame v } := by
  have marked := stopMarked_eq s v cause device
  rw [(atPorts_stopRaised s v cause device).frame, marked, (atPorts_evaluateRoom (stopHeld s v cause device) v).frame]
  simp [State.setView, State.wrote, stopHeld]

/-! ### What a stop records -/

theorem stopHeld_deltaDistance (s : State) (v : Slot) (cause : StopCause) (device : Nat) :
    deltaDistance (stopHeld s v cause device) v = deltaDistance s v := by
  have view := stopHeld_view s v cause device
  exact deltaDistance_congr (by rw [view]; rfl) (by rw [view]; rfl) rfl

theorem stopHeld_deltaFree (s : State) (v : Slot) (cause : StopCause) (device : Nat) :
    deltaFree (stopHeld s v cause device) v = deltaFree s v := deltaFree_congr (stopHeld_deltaDistance s v cause device)

theorem stopRaised_status_stands (s : State) (v : Slot) (cause : StopCause) (device : Nat) :
    Stands (stopRaised s v cause device) (Config.viewStatusAddr v)
      (viewStatusBytes (stopRaised s v cause device).views[v]) := by
  refine (atPorts_stopRaised s v cause device).stands (viewStatusAddr_bounds v).1 ?_
  rw [stopRaised_view, stopMarked_eq]
  exact wrote_status_stands _ _ _ _

/-- The STOP_MARK stands where the delta ring has room. -/
theorem stopRaised_mark_stands {s : State} {v : Slot} (room : 1 ≤ deltaFree s v) (cause : StopCause) (device : Nat) :
    Stands (stopRaised s v cause device) (Config.deltaEntry v (s.views[v].producer.toNat % 4096))
      (stopMarkBytes cause device) := by
  have held : (stopHeld s v cause device).views[v].producer = s.views[v].producer := by
    rw [stopHeld_view]
    rfl
  refine (atPorts_stopRaised s v cause device).stands ((deltaEntry_bounds v _).1.trans' (by decide)) ?_
  rw [stopMarked_eq, ← held]
  exact wrote_mark_stands (by rwa [stopHeld_deltaFree]) (stopMarkBytes_length _ _) _

theorem stopRaised_view_of_room {s : State} {v : Slot} (room : 1 ≤ deltaFree s v) (cause : StopCause) (device : Nat) :
    (stopRaised s v cause device).views[v] =
      { s.views[v].stopped cause device with producer := s.views[v].producer + 1 } := by
  rw [stopRaised_view, markedView_of_room (by rwa [stopHeld_deltaFree]), stopHeld_view]
  rfl

theorem stopRaised_view_of_full {s : State} {v : Slot} (full : deltaFree s v = 0) (cause : StopCause) (device : Nat) :
    (stopRaised s v cause device).views[v] =
      { s.views[v].stopped cause device with lostMarks := min (s.views[v].lostMarks + 1) 65535 } := by
  rw [stopRaised_view, markedView_of_full (by rwa [stopHeld_deltaFree]), stopHeld_view]
  rfl

theorem StopCause.raises_iff (cause : StopCause) : cause.raises = true ↔ cause ∉ [StopCause.none, .stepDone, .holdCmd] := by
  cases cause <;> decide

theorem stopRaised_hasCause {s : State} {v : Slot} {cause : StopCause} (device : Nat) (raises : cause.raises = true)
    (bound : reports s s.views[v].ctx.owner = true) :
    hasCause (stopRaised s v cause device).ports[s.views[v].ctx.owner].causes .viewStopped = true := by
  rw [stopRaised, if_pos raises]
  refine raiseCause_hasCause _ ?_
  rw [reports, stopMarked_ports]
  exact (evaluateRoom_reports (stopHeld s v cause device) v _).trans bound

theorem stopRaised_ports {s : State} {v : Slot} {cause : StopCause} (device : Nat) (quiet : cause.raises = false)
    (near : deltaDistance s v ≤ 4096) : (stopRaised s v cause device).ports = s.ports := by
  rw [stopRaised, if_neg (by simp [quiet]), stopMarked_eq, evaluateRoom_of_near (by rwa [stopHeld_deltaDistance])]
  rfl

/-! ### The end of a STEP (R114) -/

theorem endStep_of_none {s : State} {v : Slot} (idle : s.views[v].step = none) (cause : StopCause) :
    endStep s v cause = s := by
  unfold endStep
  simp only [idle]

theorem endStep_of_some {s : State} {v : Slot} {st : StepOp} (inFlight : s.views[v].step = some st) (cause : StopCause) :
    endStep s v cause = complete
      (s.setView v { s.views[v] with step := none, ctx := { s.views[v].ctx with budget := 0 } }) st.serial
      (okOr st.clamped) st.applied cause.code s.views[v].ctx.cursor := by
  unfold endStep
  simp only [inFlight]

theorem stopRaised_step (s : State) (v : Slot) (cause : StopCause) (device : Nat) :
    (stopRaised s v cause device).views[v].step = s.views[v].step := by
  rw [stopRaised_view, markedView_eq, stopHeld_view]
  rfl

/-- A view whose STEP, if it had one, has ended. -/
def View.stepEnded (w : View) : View :=
  { w with step := none, ctx := { w.ctx with budget := if w.step = none then w.ctx.budget else 0 } }

/-- The end of a STEP is a report to its port, on the view with the STEP ended. -/
theorem atPorts_endStep (s : State) (v : Slot) (cause : StopCause) :
    AtPorts (s.setView v s.views[v].stepEnded) (endStep s v cause) := by
  cases step : s.views[v].step with
  | none =>
    have same : s.views[v].stepEnded = s.views[v] := by
      unfold View.stepEnded
      rw [if_pos step, ← step]
    rw [endStep_of_none step, same, State.setView_same]
    exact AtPorts.refl s
  | some st =>
    rw [endStep_of_some step, View.stepEnded, if_neg (ne_of_eq_of_ne step (Option.some_ne_none st))]
    exact atPorts_complete _ _ _ _ _ _

/-- A whole stop is a report to ports, on the stop recorded and the STEP ended. -/
theorem atPorts_stopView (s : State) (v : Slot) (cause : StopCause) (device : Nat) :
    AtPorts ((stopRaised s v cause device).setView v (stopRaised s v cause device).views[v].stepEnded)
      (stopView s v cause device) := by
  rw [stopView_eq]
  exact atPorts_endStep _ _ _

theorem stopView_view (s : State) (v : Slot) (cause : StopCause) (device : Nat) :
    (stopView s v cause device).views[v] = (stopRaised s v cause device).views[v].stepEnded := by
  rw [(atPorts_stopView s v cause device).views, State.setView_get_self]

/-- What a stop leaves of the view but for its marks. -/
theorem stopView_view_eq (s : State) (v : Slot) (cause : StopCause) (device : Nat) : (stopView s v cause device).views[v] =
    { (s.views[v].stopped cause device).stepEnded with
      producer := (stopView s v cause device).views[v].producer
      lostMarks := (stopView s v cause device).views[v].lostMarks } := by
  rw [stopView_view, stopRaised_view, markedView_eq, stopHeld_view]
  rfl

/-- What a stop leaves of the rest of the part. -/
theorem stopView_frame (s : State) (v : Slot) (cause : StopCause) (device : Nat) : stopView s v cause device = { s with
    ring := { s.ring with
      replica := (stopView s v cause device).ring.replica, own := (stopView s v cause device).ring.own }
    ports := (stopView s v cause device).ports
    views := s.views.set v (stopView s v cause device).views[v]
    arbiter := s.arbiter.withdrawFrame v } := by
  have view := stopView_view s v cause device
  rw [(atPorts_stopView s v cause device).frame] at view ⊢
  rw [view, stopRaised_frame]
  simp [State.setView]

/-- A whole stop leaves its STOP_MARK where the delta ring has room. -/
theorem stopView_marks {s : State} {v : Slot} (room : 1 ≤ deltaFree s v) (cause : StopCause) (device : Nat) :
    (stopView s v cause device).views[v].producer = s.views[v].producer + 1 ∧
      Stands (stopView s v cause device) (Config.deltaEntry v (s.views[v].producer.toNat % 4096))
        (stopMarkBytes cause device) := by
  refine ⟨?_, (atPorts_stopView s v cause device).stands ((deltaEntry_bounds v _).1.trans' (by decide))
    (stopRaised_mark_stands room cause device)⟩
  rw [stopView_view, stopRaised_view_of_room room]
  rfl

/-- Settles O37: the state before the end of a STEP has the stop recorded, and the STEP's end is a completion. -/
theorem stopRecordsItself : Obligations.StopRecordsItself := by
  intro s v cause device w
  have reached := atView_stopRaised s v cause device
  refine ⟨stopRaised s v cause device, ?_, reached.2.1, reached.sameJournal, ?_, fun room => ?_, fun full => ?_,
    stopRaised_status_stands s v cause device, fun loud bound => ?_, fun mute near => ?_, fun idle => ?_,
    fun st p c inFlight found => ?_⟩
  · rw [stopRaised_view, markedView_eq, stopHeld_view]
    rfl
  · rw [stopRaised_frame]
  · rw [stopRaised_view_of_room room]
    exact ⟨rfl, rfl, stopRaised_mark_stands room cause device⟩
  · rw [stopRaised_view_of_full full]
    exact ⟨rfl, rfl⟩
  · exact stopRaised_hasCause device (cause.raises_iff.2 loud) bound
  · refine stopRaised_ports device (Bool.eq_false_iff.2 fun raises => cause.raises_iff.1 raises ?_) near
    exact List.mem_cons_of_mem _ mute
  · rw [stopView_eq, endStep_of_none ((stopRaised_step s v cause device).trans idle)]
  · have cursor : (stopRaised s v cause device).views[v].ctx.cursor = w.ctx.cursor := by
      rw [stopRaised_view, markedView_ctx, stopHeld_view]
      rfl
    rw [stopView_eq, endStep_of_some ((stopRaised_step s v cause device).trans inFlight), cursor]
    refine (complete_spec _ _ _ _ _ _ p c ?_).symm
    exact (findCommand_of_inFlight (stopRaised_inFlight s v cause device) _).trans found

end Sys2Proof.Machine
end

section
/-! PROOFS. Views placed and views sought for: the FREE slot taken, the status record of a SEEKING view, and the two routes
of a seek (R74, R84 to R88, R96). -/

namespace Sys2Proof.Machine

/-! ### The end of a command on a changed state -/

/-- A command whose work on `s` comes to its end on `u` completes, where `u` holds the ports of `s`. -/
theorem Taken.completes {i : Instr} {s u : State} {n : Nat} {k : CommandKind} {p : PortId} {d : Descriptor} {r : Result}
    {v1 v2 v3 : Nat} (taken : Taken s n k p d) (ports : u.ports = s.ports)
    (run : exec i s = .next (complete u n r v1 v2 v3)) : Completes i s u n p d r v1 v2 v3 :=
  completes_of_eq (c := ⟨n, d, false⟩) run ((findCommand_of_ports ports n).trans taken.1)

/-! ### The lowest FREE slot (R74) -/

theorem lowestFreeView_eq_some {s : State} {v : Slot} (free : s.views[v].state = .free)
    (lower : ∀ w : Slot, w < v → s.views[w].state ≠ .free) : lowestFreeView s = some v := by
  unfold lowestFreeView
  rw [List.find?_eq_some_iff_getElem]
  exact ⟨decide_eq_true free, v.val, by simp, by simp, fun j hj => by
    simpa using lower ⟨j, hj.trans v.isLt⟩ hj⟩

theorem lowestFreeView_eq_none {s : State} (taken : ∀ v : Slot, s.views[v].state ≠ .free) : lowestFreeView s = none := by
  unfold lowestFreeView
  simpa using taken

/-! ### A view that is SEEKING (R85) -/

/-- A view that is SEEKING with the seek `k`. -/
def View.seekingWith (w : View) (k : SeekOp) : View := { w with
  state := .seeking, seek := some k, noGap := true, lastFrameTime := none, ctx := { w.ctx with budget := 0 } }

theorem enterSeeking_eq (s : State) (v : Slot) (k : SeekOp) : enterSeeking s v k =
    (s.setView v (s.views[v].seekingWith k)).wrote [statusWrite v (s.views[v].seekingWith k)] :=
  setView_writeViewStatus s v _

/-- A view of a port's own that moves is brought to HELD for a seek or a new run. -/
def View.quieted (w : View) : View := if w.state = .running ∨ w.state = .stalled then w.held else w

theorem quieted_ctx (w : View) : w.quieted.ctx = w.ctx := by
  unfold View.quieted
  split <;> rfl

theorem quieted_producer (w : View) : w.quieted.producer = w.producer := by
  unfold View.quieted
  split <;> rfl

theorem quieted_lostMarks (w : View) : w.quieted.lostMarks = w.lostMarks := by
  unfold View.quieted
  split <;> rfl

theorem quieted_of_moving {w : View} (moving : Moving w) : w.quieted = w.held := if_pos moving

theorem quiet_eq (s : State) (v : Slot) : quiet s v = { s with
    views := s.views.set v s.views[v].quieted
    arbiter := if s.views[v].state = .running ∨ s.views[v].state = .stalled then s.arbiter.withdrawFrame v
      else s.arbiter } := by
  unfold quiet View.quieted
  split
  · exact bringToHeld_eq s v
  · exact (State.setView_same s v).symm

/-! ### Routes (R86) -/

theorem pin_slot (s : State) (k j : Nat) :
    (pin s k).slot j = if j = k then { s.slot k with pins := (s.slot k).pins + 1 } else s.slot j :=
  State.setSlot_slot _ _ _ _

theorem pin_wrote (s : State) (ws : List (Nat × List Byte)) (k : Nat) : pin (s.wrote ws) k = (pin s k).wrote ws := rfl

theorem pin_setView (s : State) (v : Slot) (x : View) (k : Nat) : pin (s.setView v x) k = (pin s k).setView v x := rfl

/-- A seek of a view that is not positioned loads its seek base. -/
theorem seekRoute_unpositioned {s : State} {k : SeekOp} (h : k.positioned = none) :
    seekRoute s k = some (seekBase s k.target) := by
  unfold seekRoute
  rw [h]

/-- A positioned view's seek rolls when the view's image is no farther from the target than the seek base is. -/
theorem seekRoute_positioned {s : State} {k : SeekOp} {q : Nat} (h : k.positioned = some q) : seekRoute s k =
    if timeDistance k.target q ≤ k.target - (s.slot (seekBase s k.target)).pos then none
    else some (seekBase s k.target) := by
  unfold seekRoute
  rw [h]

/-- The route depends on the directory alone. -/
theorem seekRoute_congr {s t : State} (h : t.directory = s.directory) (k : SeekOp) : seekRoute t k = seekRoute s k := by
  unfold seekRoute seekBase State.slot
  rw [h]

/-- A seek `k` routed by way of checkpoint slot `b`. -/
def SeekOp.byLoad (k : SeekOp) (s : State) (b : Nat) (phase : SeekPhase) : SeekOp :=
  { k with phase := phase, loads := true, start := (s.slot b).pos }

/-- A seek `k` routed by a roll from the position its view counts as standing at. -/
def SeekOp.byRoll (k : SeekOp) (phase : SeekPhase) : SeekOp :=
  { k with phase := phase, loads := false, start := k.positioned.getD 0 }

section
variable {s : State} {v : Slot} {k : SeekOp}

/-- A SEEKING view's route fixed, by way of a checkpoint: the load pins it. -/
theorem fixRoute_enterSeeking_load {b : Nat} (route : seekRoute s k = some b) : fixRoute (enterSeeking s v k) v k =
    ((pin s b).setView v (s.views[v].seekingWith (k.byLoad s b (.routed (some b))))).wrote
      [statusWrite v (s.views[v].seekingWith k)] := by
  have same : seekRoute (enterSeeking s v k) k = some b := (seekRoute_congr rfl k).trans route
  unfold fixRoute
  rw [same, enterSeeking_eq]
  dsimp only
  rw [wrote_views, State.setView_get_self, pin_wrote, pin_setView, wrote_setView, setView_setView]
  rfl

/-- A SEEKING view's route fixed, by a roll. -/
theorem fixRoute_enterSeeking_roll (route : seekRoute s k = none) : fixRoute (enterSeeking s v k) v k =
    (s.setView v (s.views[v].seekingWith (k.byRoll (.routed none)))).wrote [statusWrite v (s.views[v].seekingWith k)] := by
  have same : seekRoute (enterSeeking s v k) k = none := (seekRoute_congr rfl k).trans route
  unfold fixRoute
  rw [same, enterSeeking_eq]
  dsimp only
  rw [wrote_views, State.setView_get_self, wrote_setView, setView_setView]
  rfl

/-- The first requests of a seek by way of a checkpoint. -/
theorem startRoute_load {b : Nat} (seek : s.views[v].seek = some k) (routed : k.phase = .routed (some b)) :
    startRoute s v = (s.setView v { s.views[v] with seek := some { k with phase := .loading b } }).submit (.view v)
      (requests (.view v) .b .seekLoad 16 true) := by
  unfold startRoute
  simp only [seek, routed]

/-- The first requests of a seek by a roll. -/
theorem startRoute_roll (seek : s.views[v].seek = some k) (routed : k.phase = .routed none) :
    startRoute s v = (s.setView v { s.views[v] with seek := some { k with phase := .rolling } }).submit (.view v)
      (rollRequests v (timeDistance k.target k.start)) := by
  unfold startRoute
  simp only [seek, routed]

theorem chooseRoute_enterSeeking : chooseRoute (enterSeeking s v k) v = startRoute (fixRoute (enterSeeking s v k) v k) v := by
  have seek : (enterSeeking s v k).views[v].seek = some k := by
    rw [enterSeeking_eq, wrote_views, State.setView_get_self]
    rfl
  unfold chooseRoute
  rw [seek]

/-- A seek that loads: its checkpoint is pinned and its read asked for. -/
theorem chooseRoute_load {b : Nat} (route : seekRoute s k = some b) : chooseRoute (enterSeeking s v k) v =
    (((pin s b).setView v (s.views[v].seekingWith (k.byLoad s b (.loading b)))).submit (.view v)
      (requests (.view v) .b .seekLoad 16 true)).wrote [statusWrite v (s.views[v].seekingWith k)] := by
  rw [chooseRoute_enterSeeking, fixRoute_enterSeeking_load route]
  rw [startRoute_load (by rw [wrote_views, State.setView_get_self]; rfl) rfl, wrote_views, State.setView_get_self,
    wrote_setView, setView_setView]
  rfl

/-- A seek that rolls: its transfers are asked for. -/
theorem chooseRoute_roll (route : seekRoute s k = none) : chooseRoute (enterSeeking s v k) v =
    ((s.setView v (s.views[v].seekingWith (k.byRoll .rolling))).submit (.view v)
      (rollRequests v (timeDistance k.target (k.positioned.getD 0)))).wrote [statusWrite v (s.views[v].seekingWith k)] := by
  rw [chooseRoute_enterSeeking, fixRoute_enterSeeking_roll route]
  rw [startRoute_roll (by rw [wrote_views, State.setView_get_self]; rfl) rfl, wrote_views, State.setView_get_self,
    wrote_setView, setView_setView]
  rfl

end

/-! ### OPEN_VIEW (R75, R78, R84) -/

section
variable {s : State} {n : Nat} {p : PortId} {d : Descriptor}

theorem exec_openView (taken : Taken s n .openView p d) (unreserved : reservationHeld s = false) :
    exec (.openView n) s = .next (if s.journal.state = .unformatted then complete s n .badState 0 0 0
      else match lowestFreeView s with
        | none => complete s n .noSlot 0 0 0
        | some v => beginOpen s n p d v) :=
  congrArg Host.Outcome.next (withJournalCommand_taken taken unreserved _)

/-- The seek of OPEN_VIEW, to its window's base. -/
def openSeek (s : State) (n : Nat) (p : PortId) (d : Descriptor) : SeekOp :=
  ⟨some n, .openView, windowBase s (openContext p d), windowClamped (d.field 8 8) (d.field 16 8), none, none, .rolling,
    false, 0⟩

/-- The view OPEN_VIEW places, before its seek. -/
def openedView (s : State) (p : PortId) (d : Descriptor) (v : Slot) : View :=
  { ctx := { openContext p d with cursor := windowBase s (openContext p d) }
    producer := s.indexAt (Config.deltaConsumerAddr p v) }

theorem beginOpen_eq (s : State) (n : Nat) (p : PortId) (d : Descriptor) (v : Slot) : beginOpen s n p d v =
    chooseRoute (enterSeeking ((markStarted s n).setView v (openedView s p d v)) v (openSeek s n p d)) v := rfl

end

/-- Settles O31: a view that is not positioned loads its seek base. -/
theorem openViewPlacesView : Obligations.OpenViewPlacesView := by
  intro s n p d taken unreserved
  have run := exec_openView taken unreserved
  refine ⟨fun unformatted => ?_, fun formatted full => ?_, fun formatted v free lower => ?_⟩
  · rw [if_pos unformatted] at run
    exact taken.completes rfl run
  · rw [if_neg formatted, lowestFreeView_eq_none full] at run
    exact taken.completes rfl run
  intro start limit base k
  rw [if_neg formatted, lowestFreeView_eq_some free lower] at run
  have route : seekRoute ((markStarted s n).setView v (openedView s p d v)) (openSeek s n p d) = some k :=
    seekRoute_unpositioned rfl
  dsimp only at run
  rw [beginOpen_eq, chooseRoute_load route, State.setView_get_self] at run
  refine ⟨_, run, State.setView_get_self (pin _ k) v _, ?_, ?_, fun j other => ?_, ?_, fun a outside => ?_⟩
  · simp only [wrote_views, State.submit_views, State.setView_get_self]
    rw [pin_setView, setView_setView]
    rfl
  · exact (pin_slot s k k).trans (if_pos rfl)
  · exact (pin_slot s k j).trans (if_neg other)
  · simp only [wrote_views, State.submit_views, State.setView_get_self]
    exact wrote_status_stands _ [] _ _
  · exact wrote_status_byteAt _ _ _ outside

/-! ### SEEK and RETURN (R85, R86, R88, R96) -/

/-- The seek of a positioned view to `asked`. -/
def seekTo (s : State) (n : Nat) (v : Slot) (kind : SeekKind) (asked : Nat) (width : Option Nat) : SeekOp :=
  ⟨some n, kind, clampTarget s s.views[v].ctx asked, decide (clampTarget s s.views[v].ctx asked ≠ asked), width,
    some s.views[v].ctx.cursor, .rolling, false, 0⟩

theorem beginSeek_eq (s : State) (n : Nat) (v : Slot) (kind : SeekKind) (asked : Nat) (width : Option Nat) :
    beginSeek s n v kind asked width =
      chooseRoute (enterSeeking (quiet (markStarted s n) v) v (seekTo s n v kind asked width)) v := by
  have cursor : (quiet (markStarted s n) v).views[v].ctx.cursor = s.views[v].ctx.cursor := by
    rw [quiet_eq]
    exact (congrArg (fun w : View => w.ctx.cursor) (State.setView_get_self (markStarted s n) v _)).trans
      (congrArg ViewContext.cursor (quieted_ctx _))
  unfold beginSeek seekTo
  dsimp only
  rw [cursor]

/-- The arbiter once a view that moves has been brought to HELD: the reads of its frame are withdrawn. -/
def quietArbiter (s : State) (v : Slot) : Arbiter :=
  if s.views[v].state = .running ∨ s.views[v].state = .stalled then s.arbiter.withdrawFrame v else s.arbiter

section
variable {s : State} {n : Nat} {v : Slot} {kind : SeekKind} {asked : Nat} {width : Option Nat}

theorem quiet_markStarted_view : (quiet (markStarted s n) v).views[v] = s.views[v].quieted := by
  rw [quiet_eq]
  exact State.setView_get_self (markStarted s n) v _

/-- A seek of a positioned view begins: its route is a roll from the view's own image where that is no farther than the
seek base, else a load that pins the base. -/
theorem beginSeek_spec :
    let k := seekTo s n v kind asked width
    let b := seekBase s k.target
    let rolls := timeDistance k.target s.views[v].ctx.cursor ≤ k.target - (s.slot b).pos
    ∃ y slots arbiter, beginSeek s n v kind asked width = State.wrote { markStarted s n with
        views := s.views.set v (s.views[v].quieted.seekingWith y)
        directory := { s.directory with slots := slots }
        arbiter := arbiter } [statusWrite v (s.views[v].quieted.seekingWith k)] ∧
    (rolls → y = k.byRoll .rolling ∧ slots = s.directory.slots ∧
      arbiter = (quietArbiter s v).submit (.view v) (rollRequests v (timeDistance k.target s.views[v].ctx.cursor))) ∧
    (¬ rolls → y = k.byLoad s b (.loading b) ∧ slots = (pin s b).directory.slots ∧
      arbiter = (quietArbiter s v).submit (.view v) (requests (.view v) .b .seekLoad 16 true)) := by
  intro k b rolls
  have route : seekRoute (quiet (markStarted s n) v) k = if rolls then none else some b :=
    (seekRoute_congr (by rw [quiet_eq]; rfl) _).trans (seekRoute_positioned (s := s) rfl)
  rw [beginSeek_eq]
  by_cases near : rolls
  · refine ⟨k.byRoll .rolling, s.directory.slots, (quietArbiter s v).submit (.view v)
      (rollRequests v (timeDistance k.target s.views[v].ctx.cursor)), ?_, fun _ => ⟨rfl, rfl, rfl⟩, fun far => absurd near far⟩
    rw [chooseRoute_roll (route.trans (if_pos near)), quiet_markStarted_view, quiet_eq]
    simp only [State.setView, Vector.set_set]
    rfl
  · refine ⟨k.byLoad s b (.loading b), (pin s b).directory.slots, (quietArbiter s v).submit (.view v)
      (requests (.view v) .b .seekLoad 16 true), ?_, fun rolls => absurd rolls near, fun _ => ⟨rfl, rfl, rfl⟩⟩
    rw [chooseRoute_load (route.trans (if_neg near)), quiet_markStarted_view, quiet_eq]
    simp only [State.setView, pin, State.setSlot, Vector.set_set]
    rfl

end

/-- What a view that is quieted and then SEEKING shows. -/
theorem quieted_seekingWith (w : View) (k : SeekOp) :
    (w.quieted.seekingWith k).state = .seeking ∧ (w.quieted.seekingWith k).ctx = { w.ctx with budget := 0 } ∧
    (w.quieted.seekingWith k).producer = w.producer ∧ (w.quieted.seekingWith k).lostMarks = w.lostMarks ∧
    (w.quieted.seekingWith k).noGap = true ∧
    (Moving w → (w.quieted.seekingWith k).frame = none ∧ (w.quieted.seekingWith k).timer = none) := by
  refine ⟨rfl, ?_, quieted_producer w, quieted_lostMarks w, rfl, fun moving => ?_⟩
  · rw [View.seekingWith, quieted_ctx]
  · rw [quieted_of_moving moving]
    exact ⟨rfl, rfl⟩

theorem exec_seek {s : State} {n : Nat} {p : PortId} {d : Descriptor} {v : Slot} (taken : Taken s n .seek p d)
    (unreserved : reservationHeld s = false) (names : NamesView s p d v) : exec (.seek n) s =
      .next (beginSeek s n v .seek (seekAsked s d) (if d.select 9 then some (d.field 10 2) else none)) :=
  congrArg Host.Outcome.next (withSeekingView_taken taken unreserved names _)

theorem exec_returnMark {s : State} {n : Nat} {p : PortId} {d : Descriptor} {v : Slot} (taken : Taken s n .returnMark p d)
    (unreserved : reservationHeld s = false) (names : NamesView s p d v) : exec (.returnMark n) s =
      .next (match s.views[v].ctx.marks with
        | [] => complete s n .empty 0 0 0
        | m :: rest => beginSeek (s.setView v { s.views[v] with ctx := { s.views[v].ctx with marks := rest } }) n v .seek m
            none) :=
  congrArg Host.Outcome.next (withSeekingView_taken taken unreserved names _)

/-- A byte set to select: 0 for the first setting (R175). -/
theorem select_ite {α : Type} (d : Descriptor) (off : Nat) (x y : α) :
    (if d.select off then x else y) = if d.field off 1 = 0 then y else x := by
  unfold Descriptor.select
  by_cases h : d.field off 1 = 0 <;> simp [h]

/-- Settles O32: SEEK and RETURN are one seek, on the view with the marks each leaves. -/
theorem seekChoosesRoute : Obligations.SeekChoosesRoute := by
  intro s n p d v unreserved names w seeks
  have sought : ∀ i asked width marks, exec i s = .next
      (beginSeek (s.setView v { w with ctx := { w.ctx with marks := marks } }) n v .seek asked width) →
      seeks i asked width marks := by
    intro i asked width marks run
    have view := State.setView_get_self s v { w with ctx := { w.ctx with marks := marks } }
    obtain ⟨y, slots, arbiter, begun, rolls, loads⟩ := beginSeek_spec
      (s := s.setView v { w with ctx := { w.ctx with marks := marks } }) (n := n) (v := v) (kind := .seek) (asked := asked)
      (width := width)
    rw [begun, view] at run
    unfold seekTo quietArbiter at rolls loads
    rw [view] at rolls loads
    obtain ⟨state, ctx, producer, lost, noGap, still⟩ :=
      quieted_seekingWith { w with ctx := { w.ctx with marks := marks } } y
    refine ⟨_, run, ?_, fun a outside => wrote_status_byteAt _ _ _ outside, ?_⟩
    · simp only [wrote_views, State.setView_views, Vector.set_set, Vector.getElem_set_self, Fin.getElem_fin]
      rfl
    simp only [wrote_views, State.setView_views, Vector.set_set, Vector.getElem_set_self, Fin.getElem_fin]
    refine ⟨state, ctx, producer, lost, noGap, still, ?_⟩
    split
    next near =>
      obtain ⟨rfl, rfl, rfl⟩ := rolls near
      exact ⟨rfl, rfl, rfl⟩
    next far =>
      obtain ⟨rfl, rfl, rfl⟩ := loads far
      exact ⟨rfl, (pin_slot s _ _).trans (if_pos rfl), fun j other => (pin_slot s _ j).trans (if_neg other), rfl⟩
  refine ⟨fun taken => sought _ _ _ _ ?_, fun taken empty => ?_, fun taken m rest marked => sought _ _ _ _ ?_⟩
  · rw [exec_seek taken unreserved names, seekAsked, select_ite, select_ite]
    exact congrArg (fun t => Host.Outcome.next (beginSeek t n v _ _ _)) (State.setView_same s v).symm
  · have run := exec_returnMark taken unreserved names
    rw [empty] at run
    exact taken.completes rfl run
  · rw [exec_returnMark taken unreserved names, marked]

end Sys2Proof.Machine
end

section
/-! PROOFS. Views parked, resumed and exchanged, and the ends of their copies (R97 to R100, R170). -/

namespace Sys2Proof.Machine

/-! ### The parked table (R97, R98) -/

theorem State.setParked_parkedEntry (s : State) (i j : Nat) (x : Option ViewContext) :
    (s.setParked i x).parkedEntry j = if j = i then x else s.parkedEntry j := Sparse.get_set _ _ _ _ _

section
variable {s : State} {n : Nat} {p : PortId} {id : Nat} {f : ViewContext → State}

theorem checkParked_of_none (missing : 63 < id ∨ s.parkedEntry id = none) :
    checkParked s n p id f = complete s n .badTarget 0 0 0 := by
  unfold checkParked
  split
  next low =>
    have empty : s.parkedEntry id = none := missing.resolve_left (by unfold Config.parkedEntries at low; omega)
    simp only [empty]
  next => rfl

theorem checkParked_of_some {c : ViewContext} (low : id ≤ 63) (held : s.parkedEntry id = some c) :
    checkParked s n p id f = if c.owner ≠ p then complete s n .notOwner 0 0 0 else f c := by
  unfold checkParked
  rw [if_pos (by unfold Config.parkedEntries; omega)]
  simp only [held]

end

/-- A parked entry is filled, or promised to a PARK in flight. -/
def ParkedFilled (s : State) (i : Nat) : Prop := s.parkedEntry i ≠ none ∨ ∃ m x, CopyJob.park m x i ∈ s.copies

theorem parkedFilled_iff (s : State) (i : Nat) :
    ParkedFilled s i ↔ ((s.parkedEntry i).isNone && !promised s i) = false := by
  unfold ParkedFilled
  rw [← promised_iff]
  cases s.parkedEntry i <;> cases promised s i <;> simp

theorem lowestEmptyParked_eq_none {s : State} (full : ∀ i < 64, ParkedFilled s i) : lowestEmptyParked s = none := by
  unfold lowestEmptyParked
  rw [List.find?_eq_none]
  intro i hi
  simpa using (parkedFilled_iff s i).1 (full i (List.mem_range.1 hi))

theorem lowestEmptyParked_eq_some {s : State} {i : Nat} (low : i < 64) (empty : ¬ ParkedFilled s i)
    (lower : ∀ j < i, ParkedFilled s j) : lowestEmptyParked s = some i := by
  unfold lowestEmptyParked
  rw [List.find?_range_eq_some]
  refine ⟨by simpa using mt (parkedFilled_iff s i).2 empty, List.mem_range.2 low, fun j hj => ?_⟩
  rw [(parkedFilled_iff s j).1 (lower j hj)]
  rfl

/-! ### Copies asked for (R170) -/

theorem submitCopy_eq (s : State) (j : CopyJob) (contexts : Nat) : submitCopy s j contexts = { s with
    copies := s.copies ++ [j], arbiter := s.arbiter.submit .contextCopier (copyRequests contexts) } := rfl

theorem copyRequests_one : copyRequests 1 = [⟨.contextCopier, .d, .contextCopy, true⟩] := rfl

/-! ### RESUME (R99) -/

/-- The seek of a context taken from the parked table, of a view positioned at `origin` or not positioned. -/
def parkedSeek (s : State) (n : Nat) (kind : SeekKind) (c : ViewContext) (origin : Option Nat) : SeekOp :=
  ⟨some n, kind, clampTarget s c c.cursor, decide (clampTarget s c c.cursor ≠ c.cursor), none, origin, .routed none, false, 0⟩

/-- The view RESUME places, before its seek. -/
def resumedView (s : State) (v : Slot) (c : ViewContext) : View :=
  { ctx := c, producer := s.indexAt (Config.deltaConsumerAddr c.owner v) }

section
variable {s : State} {n : Nat} {p : PortId} {d : Descriptor}

theorem exec_resume (taken : Taken s n .resume p d) (unreserved : reservationHeld s = false) :
    exec (.resume n) s = .next (checkParked s n p d.target fun c =>
      match lowestFreeView s with
      | none => complete s n .noSlot 0 0 0
      | some v =>
        let k := parkedSeek s n .resume c none
        submitCopy (fixRoute (enterSeeking ((placeView (markStarted s n) v c).setParked d.target none) v k) v k)
          (.restore v) 1) :=
  congrArg Host.Outcome.next (withJournalCommand_taken taken unreserved _)

/-- RESUME of a port's own context into the lowest FREE slot. -/
theorem exec_resume_own (taken : Taken s n .resume p d) (unreserved : reservationHeld s = false) {c : ViewContext} {v : Slot}
    (low : d.target ≤ 63) (held : s.parkedEntry d.target = some c) (own : c.owner = p) (free : lowestFreeView s = some v) :
    let k := parkedSeek s n .resume c none
    let b := seekBase s k.target
    exec (.resume n) s = .next (State.wrote { markStarted s n with
      views := s.views.set v ((resumedView s v c).seekingWith (k.byLoad s b (.routed (some b))))
      parked := Sparse.set none s.parked d.target none
      copies := s.copies ++ [.restore v]
      directory := (pin s b).directory
      arbiter := s.arbiter.submit .contextCopier [⟨.contextCopier, .d, .contextCopy, true⟩] }
      [statusWrite v ((resumedView s v c).seekingWith k)]) := by
  intro k b
  rw [exec_resume taken unreserved, checkParked_of_some low held, if_neg (not_not.2 own), free]
  have placed : ((placeView (markStarted s n) v c).setParked d.target none).views[v] = resumedView s v c :=
    State.setView_get_self (markStarted s n) v _
  have route : seekRoute ((placeView (markStarted s n) v c).setParked d.target none) k = some b := seekRoute_unpositioned rfl
  dsimp only
  rw [fixRoute_enterSeeking_load route, placed, submitCopy_eq, copyRequests_one]
  simp only [State.setView, placeView, pin, State.setSlot, State.setParked, Vector.set_set]
  rfl

end

/-! ### EXCHANGE (R100) -/

/-- The route of a positioned SEEKING view, fixed (R86), in terms of any state with the same directory. -/
theorem fixRoute_positioned {r s : State} {v : Slot} {k : SeekOp} {q : Nat} (placed : k.positioned = some q)
    (same : s.directory = r.directory) :
    let b := seekBase r k.target
    let rolls := timeDistance k.target q ≤ k.target - (r.slot b).pos
    ∃ y slots, fixRoute (enterSeeking s v k) v k = State.wrote { s with
        views := s.views.set v (s.views[v].seekingWith y), directory := { r.directory with slots := slots } }
      [statusWrite v (s.views[v].seekingWith k)] ∧
    (rolls → y = k.byRoll (.routed none) ∧ slots = r.directory.slots) ∧
    (¬ rolls → y = k.byLoad r b (.routed (some b)) ∧ slots = (pin r b).directory.slots) := by
  intro b rolls
  have route : seekRoute s k = if rolls then none else some b := (seekRoute_congr same k).trans (seekRoute_positioned placed)
  by_cases near : rolls
  · refine ⟨_, r.directory.slots, (fixRoute_enterSeeking_roll (route.trans (if_pos near))).trans ?_, fun _ => ⟨rfl, rfl⟩,
      fun far => absurd near far⟩
    rw [← same]
    rfl
  · refine ⟨_, (pin r b).directory.slots, (fixRoute_enterSeeking_load (route.trans (if_neg near))).trans ?_,
      fun rolls => absurd rolls near, fun _ => ⟨rfl, rfl⟩⟩
    unfold pin State.setSlot SeekOp.byLoad State.slot
    rw [← same]
    rfl

section
variable {s : State} {n : Nat} {p : PortId} {d : Descriptor} {v : Slot}

/-- A view that does not move is left as it is by HOLD_CMD. -/
theorem holdStop_still (still : ¬ Moving s.views[v]) : holdStop s v = s := if_neg still

theorem holdStop_moving (moving : Moving s.views[v]) : holdStop s v = stopView s v .holdCmd 0 := if_pos moving

/-- What a stop with HOLD_CMD leaves of a view's context. -/
theorem holdStop_ctx (moving : Moving s.views[v]) : (holdStop s v).views[v].ctx = { s.views[v].ctx with
    lastStop := .holdCmd, budget := if s.views[v].step = none then s.views[v].ctx.budget else 0 } := by
  rw [holdStop_moving moving, stopView_view_eq]
  rfl

theorem holdStop_cursor (s : State) (v : Slot) : (holdStop s v).views[v].ctx.cursor = s.views[v].ctx.cursor := by
  by_cases moving : Moving s.views[v]
  · rw [holdStop_ctx moving]
  · rw [holdStop_still moving]

/-- What HOLD_CMD leaves of the rest of the part. -/
theorem holdStop_frame (s : State) (v : Slot) : holdStop s v = { s with
    ring := { s.ring with replica := (holdStop s v).ring.replica, own := (holdStop s v).ring.own }
    ports := (holdStop s v).ports
    views := s.views.set v (holdStop s v).views[v]
    arbiter := (holdStop s v).arbiter } := by
  unfold holdStop
  split
  · rw [stopView_frame]
    simp
  · exact (State.setView_same s v).symm

theorem holdStop_directory (s : State) (v : Slot) : (holdStop s v).directory = s.directory := by
  rw [holdStop_frame]

theorem exec_exchange (taken : Taken s n .exchange p d) (unreserved : reservationHeld s = false) (names : NamesView s p d v) :
    exec (.exchange n) s = .next (checkParked s n p d.target2 fun c =>
      let h := holdStop (markStarted s n) v
      let k := parkedSeek s n .exchange c (some h.views[v].ctx.cursor)
      submitCopy (fixRoute (enterSeeking
        ((h.setParked d.target2 (some h.views[v].ctx)).setView v { h.views[v] with ctx := c }) v k) v k) (.restore v) 2) :=
  congrArg Host.Outcome.next (withSeekingView_taken taken unreserved names _)

/-- EXCHANGE with a port's own parked context. -/
theorem exec_exchange_own (taken : Taken s n .exchange p d) (unreserved : reservationHeld s = false) (names : NamesView s p d v)
    {c : ViewContext} (low : d.target2 ≤ 63) (held : s.parkedEntry d.target2 = some c) (own : c.owner = p) :
    let h := holdStop (markStarted s n) v
    let k := parkedSeek s n .exchange c (some s.views[v].ctx.cursor)
    let b := seekBase s k.target
    let rolls := timeDistance k.target s.views[v].ctx.cursor ≤ k.target - (s.slot b).pos
    ∃ y slots, exec (.exchange n) s = .next (submitCopy (State.wrote { h with
        views := h.views.set v (({ h.views[v] with ctx := c } : View).seekingWith y)
        parked := Sparse.set none h.parked d.target2 (some h.views[v].ctx)
        directory := { s.directory with slots := slots } }
      [statusWrite v (({ h.views[v] with ctx := c } : View).seekingWith k)]) (.restore v) 2) ∧
    (rolls → y = k.byRoll (.routed none) ∧ slots = s.directory.slots) ∧
    (¬ rolls → y = k.byLoad s b (.routed (some b)) ∧ slots = (pin s b).directory.slots) := by
  intro h k b rolls
  have cursor : h.views[v].ctx.cursor = s.views[v].ctx.cursor := holdStop_cursor (markStarted s n) v
  have placed := State.setView_get_self (h.setParked d.target2 (some h.views[v].ctx)) v { h.views[v] with ctx := c }
  obtain ⟨y, slots, routed, near, far⟩ := fixRoute_positioned (r := s) (v := v) (k := k)
    (s := (h.setParked d.target2 (some h.views[v].ctx)).setView v { h.views[v] with ctx := c })
    (q := s.views[v].ctx.cursor) rfl (holdStop_directory (markStarted s n) v)
  refine ⟨y, slots, ?_, near, far⟩
  rw [exec_exchange taken unreserved names, checkParked_of_some low held, if_neg (not_not.2 own)]
  dsimp only
  rw [placed] at routed
  rw [cursor, routed, State.setView_views, Vector.set_set]
  simp only [State.setView, State.setParked]

/-! ### PARK (R98) -/

theorem exec_park (taken : Taken s n .park p d) (names : NamesView s p d v) :
    exec (.park n) s = .next (match lowestEmptyParked s with
      | none => complete s n .noSlot 0 0 0
      | some i => submitCopy (holdStop (markStarted s n) v) (.park n v i) 1) :=
  congrArg Host.Outcome.next (withView_taken taken names _)

end

/-- A slot freed: its status record keeps the producer index alone (R101). -/
theorem freeView_eq (s : State) (v : Slot) : freeView s v = State.wrote { s with
      views := s.views.set v { producer := s.views[v].producer }, arbiter := s.arbiter.withdrawFrame v }
    [statusWrite v { producer := s.views[v].producer }] := by
  unfold freeView
  have kept : (discardFrame s v).views[v].producer = s.views[v].producer := by
    simp [discardFrame_eq]
  dsimp only
  rw [setView_writeViewStatus, kept, discardFrame_eq]
  simp only [State.setView, Vector.set_set]

theorem freeView_view (s : State) (v : Slot) : (freeView s v).views[v] = { producer := s.views[v].producer } := by
  rw [freeView_eq, wrote_views]
  exact State.setView_get_self s v _

theorem freeView_stands (s : State) (v : Slot) :
    Stands (freeView s v) (Config.viewStatusAddr v) (viewStatusBytes (freeView s v).views[v]) := by
  rw [freeView_view, freeView_eq]
  exact wrote_status_stands _ [] _ _

theorem freeView_byteAt (s : State) (v : Slot) {a : Nat} (outside : ¬ InBytes a (Config.viewStatusAddr v) 64) :
    (freeView s v).byteAt a = s.byteAt a := by
  rw [freeView_eq]
  exact wrote_status_byteAt _ _ _ outside

/-! ### The ends of copies (R170) -/

section
variable {s : State} {rest : List CopyJob} (ends : channelEnds s .contextCopier .contextCopy = true)
include ends

theorem exec_parkedContextCopyEnd {j : CopyJob} (copies : s.copies = j :: rest) : exec .parkedContextCopyEnd s =
    .next (afterCopy { s with copies := rest, arbiter := s.arbiter.finish } j) := by
  change execParkedContextCopyEnd s = _
  unfold execParkedContextCopyEnd
  rw [if_pos ends, copies]
  rfl

end

/-- Settles O34, command by command: what each places, and what each copy's end goes on with. -/
theorem parkResumeExchange : Obligations.ParkResumeExchange := by
  refine ⟨fun s n p d unreserved => ⟨fun taken => ⟨fun missing => ?_, fun c low held => ⟨fun foreign => ?_, fun own full => ?_,
    fun own v free lower => ?_⟩⟩, fun taken v names => ⟨fun missing => ?_, fun c low held => ⟨fun foreign => ?_,
    fun own => ?_⟩⟩⟩, fun s n p d v taken names => ?_, fun s rest ends => ⟨fun n v i p c copies found => ?_,
    fun v k copies seek => ⟨fun b routed => ?_, fun routed => ?_⟩⟩⟩
  case refine_1 =>
    refine taken.completes rfl ?_
    rw [exec_resume taken unreserved, checkParked_of_none missing]
  case refine_2 =>
    refine taken.completes rfl ?_
    rw [exec_resume taken unreserved, checkParked_of_some low held, if_pos foreign]
  case refine_3 =>
    refine taken.completes rfl ?_
    rw [exec_resume taken unreserved, checkParked_of_some low held, if_neg (not_not.2 own), lowestFreeView_eq_none full]
  case refine_4 =>
    have view : ∀ x : View, (s.views.set v x)[v] = x := State.setView_get_self s v
    refine ⟨_, exec_resume_own taken unreserved low held own (lowestFreeView_eq_some free lower), (view _).trans ?_, ?_,
      (pin_slot s _ _).trans (if_pos rfl), fun j other => (pin_slot s _ j).trans (if_neg other),
      (State.setParked_parkedEntry s _ _ none).trans (if_pos rfl),
      fun i other => (State.setParked_parkedEntry s _ i none).trans (if_neg other),
      fun a outside => wrote_status_byteAt _ _ _ outside⟩
    · rw [← own]
      rfl
    · rw [wrote_views, view]
      rfl
  case refine_5 =>
    refine taken.completes rfl ?_
    rw [exec_exchange taken unreserved names, checkParked_of_none missing]
  case refine_6 =>
    refine taken.completes rfl ?_
    rw [exec_exchange taken unreserved names, checkParked_of_some low held, if_pos foreign]
  case refine_7 =>
    intro w target b rolls
    obtain ⟨y, slots, run, near, far⟩ := exec_exchange_own taken unreserved names low held own
    have frame := holdStop_frame (markStarted s n) v
    generalize stopped : holdStop (markStarted s n) v = h at run frame
    have view : ∀ x : View, (h.views.set v x)[v] = x := State.setView_get_self h v
    have entry : ∀ i, Sparse.get none (Sparse.set none h.parked d.target2 (some h.views[v].ctx)) i =
        if i = d.target2 then some h.views[v].ctx else s.parkedEntry i := fun i => by
      rw [Sparse.get_set, frame]
      rfl
    refine ⟨_, run, fun still => ⟨(entry _).trans ?_, (congrArg View.producer (view _)).trans ?_⟩,
      fun moving => (entry _).trans ?_, fun i other => (entry i).trans (if_neg other), congrArg View.state (view _),
      congrArg View.ctx (view _), fun roll => ?_, fun load => ?_, fun x other => ?_, ?_, ?_⟩
    · rw [if_pos rfl, ← stopped, holdStop_still (s := markStarted s n) still]
      rfl
    · rw [← stopped, holdStop_still (s := markStarted s n) still]
      rfl
    · rw [if_pos rfl, ← stopped, holdStop_ctx (s := markStarted s n) moving]
      rfl
    · obtain ⟨rfl, rfl⟩ := near roll
      exact ⟨rfl, congrArg View.seek (view _)⟩
    · obtain ⟨rfl, rfl⟩ := far load
      exact ⟨(pin_slot s _ _).trans (if_pos rfl), fun j other => (pin_slot s _ j).trans (if_neg other),
        congrArg View.seek (view _)⟩
    · refine ((State.setView_get h v x _).trans (if_neg other)).trans ?_
      rw [frame]
      exact (State.setView_get (markStarted s n) v x _).trans (if_neg other)
    · rw [frame]
      rfl
    · rw [frame]
      exact ⟨rfl, rfl, rfl, rfl⟩
  case refine_8 =>
    intro filled
    refine ⟨fun full => taken.completes rfl ?_, fun i low empty lower => ?_⟩
    · rw [exec_park taken names, lowestEmptyParked_eq_none full]
    have run := exec_park taken names
    rw [lowestEmptyParked_eq_some low empty lower] at run
    refine ⟨fun still => ?_, fun moving => ?_⟩
    · rw [run, holdStop_still (s := markStarted s n) still]
      rfl
    · dsimp only at run
      rw [holdStop_moving (s := markStarted s n) moving, submitCopy_eq] at run
      have view := stopView_view_eq (markStarted s n) v .holdCmd 0
      have frame := stopView_frame (markStarted s n) v .holdCmd 0
      have others := (atView_stopView (markStarted s n) v .holdCmd 0).2.1
      have marked := fun room => stopView_marks (s := markStarted s n) (v := v) room .holdCmd 0
      generalize stopView (markStarted s n) v .holdCmd 0 = h at run view frame others marked
      refine ⟨_, run, congrArg View.state view, congrArg View.frame view, congrArg View.timer view,
        congrArg View.step view, congrArg View.ctx view, marked, others, ?_⟩
      rw [frame]
      exact ⟨rfl, rfl, rfl, rfl, rfl, rfl, rfl, rfl⟩
  case refine_9 =>
    have freed := freeView_eq (State.setParked { s with copies := rest, arbiter := s.arbiter.finish } i
      (some s.views[v].ctx)) v
    refine ⟨freeView (State.setParked { s with copies := rest, arbiter := s.arbiter.finish } i (some s.views[v].ctx)) v,
      ?_, ?_, fun j other => ?_, freeView_stands _ v, fun a outside => freeView_byteAt _ v outside,
      completes_of_eq (c := c) (exec_parkedContextCopyEnd ends copies) ((findCommand_of_ports ?_ n).trans found)⟩
    · rw [freed]
      rfl
    · rw [freed]
      exact (State.setParked_parkedEntry s i i _).trans (if_pos rfl)
    · rw [freed]
      exact (State.setParked_parkedEntry s i j _).trans (if_neg other)
    · rw [freed]
      rfl
  case refine_10 =>
    rw [exec_parkedContextCopyEnd ends copies]
    exact congrArg Host.Outcome.next (startRoute_load seek routed)
  case refine_11 =>
    rw [exec_parkedContextCopyEnd ends copies]
    exact congrArg Host.Outcome.next (startRoute_roll seek routed)

end Sys2Proof.Machine
end

section
/-! PROOFS. Settings and the closing of a view (R95, R101, R106, R115, R116, R126, R129). -/

namespace Sys2Proof.Machine

/-! ### Clamps -/

theorem clampNat_eq {lo hi : Nat} (h : lo ≤ hi) (x : Nat) : clampNat lo hi x = max lo (min x hi) := by
  unfold clampNat
  split
  · omega
  · split <;> omega

theorem clampInt_eq {lo hi : Int} (h : lo ≤ hi) (x : Int) : clampInt lo hi x = max lo (min x hi) := by
  unfold clampInt
  split
  · omega
  · split <;> omega

theorem okOr_decide (p : Prop) [Decidable p] : okOr (decide p) = if p then .clamped else .ok := by
  by_cases h : p <;> simp [okOr, h]

/-! ### The watch list (R115) -/

/-- A list with each number kept once, from what is kept already. -/
theorem keepOnce_fold (xs kept : List Nat) (nodup : kept.Nodup) :
    let out := xs.foldl (fun kept x => if kept.contains x then kept else kept ++ [x]) kept
    out.Nodup ∧ (∀ x, x ∈ out ↔ x ∈ kept ∨ x ∈ xs) ∧ ∃ more, out = kept ++ more ∧ more.Sublist xs := by
  induction xs generalizing kept with
  | nil => exact ⟨nodup, by simp, [], by simp⟩
  | cons x xs ih =>
    rw [List.foldl_cons]
    by_cases seen : x ∈ kept
    · rw [if_pos (List.contains_iff_mem.2 seen)]
      obtain ⟨once, members, more, out, sub⟩ := ih kept nodup
      refine ⟨once, fun y => (members y).trans ?_, more, out, sub.cons x⟩
      rw [List.mem_cons]
      exact ⟨fun h => h.imp_right Or.inr, fun h => h.elim Or.inl fun h => h.elim (fun e => Or.inl (e ▸ seen)) Or.inr⟩
    · rw [if_neg (mt List.contains_iff_mem.1 seen)]
      obtain ⟨once, members, more, out, sub⟩ := ih (kept ++ [x]) (List.nodup_append.2 ⟨nodup, List.nodup_singleton x,
        fun y hy z hz e => seen (List.mem_singleton.1 hz ▸ e ▸ hy)⟩)
      refine ⟨once, fun y => (members y).trans ?_, x :: more, out.trans (List.append_assoc _ _ _), sub.cons_cons x⟩
      simp [or_assoc]

theorem keepOnce_nodup (xs : List Nat) : (keepOnce xs).Nodup := (keepOnce_fold xs [] List.nodup_nil).1

theorem mem_keepOnce (xs : List Nat) (x : Nat) : x ∈ keepOnce xs ↔ x ∈ xs :=
  ((keepOnce_fold xs [] List.nodup_nil).2.1 x).trans (by simp)

theorem keepOnce_sublist (xs : List Nat) : (keepOnce xs).Sublist xs := by
  obtain ⟨-, -, more, out, sub⟩ := keepOnce_fold xs [] List.nodup_nil
  rw [show keepOnce xs = more from out]
  exact sub

/-! ### The filter (R126) -/

/-- Clamping changes a list of ranges where one of them reaches beyond station 4,095. -/
theorem map_clampRange_ne_iff (rs : List (Nat × Nat)) :
    rs.map clampRange ≠ rs ↔ ∃ r ∈ rs, 4095 < r.1 ∨ 4095 < r.2 := by
  have same : rs.map clampRange = rs ↔ ∀ r ∈ rs, clampRange r = r := by
    rw [← List.map_inj_left (g := fun r => r), List.map_id']
  rw [ne_eq, same]
  push Not
  refine exists_congr fun r => and_congr_right fun _ => ?_
  rw [ne_eq, clampRange, Prod.ext_iff]
  dsimp only
  omega

/-! ### What each setting comes to -/

section
variable {s : State} {n : Nat} {p : PortId} {d : Descriptor} {v : Slot} (names : NamesView s p d v)
include names

theorem exec_mark (taken : Taken s n .mark p d) :
    let w := s.views[v]
    let marks := (w.ctx.cursor :: w.ctx.marks).take 8
    exec (.mark n) s = .next (complete (s.setView v { w with ctx := { w.ctx with marks := marks } }) n .ok w.ctx.cursor
      marks.length 0) :=
  congrArg Host.Outcome.next (withView_taken taken names _)

theorem exec_setPace (taken : Taken s n .setPace p d) :
    let w := s.views[v]
    let code := signedOf 8 (d.field 9 1)
    let speed := max (-6) (min code 6)
    let limit := max 1000 (min (d.field 12 4) 60000000)
    exec (.setPace n) s = .next (complete (s.setView v { w with ctx := { w.ctx with
        mode := if d.field 8 1 = 0 then .paced else .flat, speed := speed, quiet := limit } }) n
      (if speed = code ∧ limit = d.field 12 4 then .ok else .clamped) 0 0 0) := by
  intro w code speed limit
  refine (congrArg Host.Outcome.next (withView_taken taken names _)).trans ?_
  have result : okOr (decide (speed ≠ code ∨ limit ≠ d.field 12 4)) =
      if speed = code ∧ limit = d.field 12 4 then .ok else .clamped := by
    simp only [okOr_decide, ne_eq, ← not_and_or, ite_not]
  dsimp only
  rw [clampInt_eq (by decide), clampNat_eq (by decide), result, paceModeOf, select_ite]

theorem exec_closeView (taken : Taken s n .closeView p d) :
    exec (.closeView n) s = .next (complete (freeView s v) n .ok 0 0 0) :=
  congrArg Host.Outcome.next (withView_taken taken names _)

theorem exec_setFilter (taken : Taken s n .setFilter p d) :
    let w := s.views[v]
    let b := readFilterBlock s.ring.replica (stagingAddr p (blockPosition 40 d.position))
    let named := b.ranges.take (min b.rangeCount 8)
    let ranges := (named.map clampRange).filter fun r => decide (r.1 ≤ r.2)
    let t := complete (s.setView v { w with ctx := { w.ctx with ranges := ranges, kinds := b.kinds } }) n
      (if 8 < b.rangeCount ∨ (∃ r ∈ named, 4095 < r.1 ∨ 4095 < r.2) ∨ ranges.length < named.length then .clamped else .ok)
      ranges.length (named.length - ranges.length) 0
    exec (.setFilter n) s = .next (if w.state = .stalled then retryStalled t v else t) := by
  intro w b named ranges t
  refine (congrArg Host.Outcome.next (withView_taken taken names _)).trans ?_
  have result : okOr (decide (8 < b.rangeCount) || named.map clampRange != named || decide (ranges.length < named.length)) =
      if 8 < b.rangeCount ∨ (∃ r ∈ named, 4095 < r.1 ∨ 4095 < r.2) ∨ ranges.length < named.length then .clamped else .ok := by
    rw [← okOr_decide]
    refine congrArg okOr (Bool.eq_iff_iff.2 ?_)
    rw [Bool.or_eq_true, Bool.or_eq_true, bne_iff_ne, map_clampRange_ne_iff]
    simp only [decide_eq_true_eq, or_assoc]
  have state : t.views[v].state = w.state := by
    rw [(atPorts_complete _ _ _ _ _ _).views, State.setView_get_self]
  dsimp only
  rw [result]
  change Host.Outcome.next (if t.views[v].state = .stalled then retryStalled t v else t) = _
  rw [state]

/-- The stop block SET_STOPS reads. -/
theorem exec_setStops (taken : Taken s n .setStops p d) :
    let w := s.views[v]
    let b := readStopBlock s.ring.replica (stagingAddr p (blockPosition 48 d.position))
    let named := b.devices.take (min b.watchCount 16)
    let watch := keepOnce (named.filter fun x => decide (x < s.journal.deviceCount))
    let brk := if b.breakPresent then some (min b.breakTime 1099511627775) else none
    exec (.setStops n) s = .next (complete (s.setView v { w with
        armed := if brk = w.ctx.breakTime then w.armed else none
        frame := if brk = w.ctx.breakTime then w.frame else w.frame.map Frame.breakChanged
        ctx := { w.ctx with breakTime := brk, watch := watch, stopAmbiguous := b.stopAmbiguous } }) n
      (if 512000 < 8 * d.position + 48 ∨ 16 < b.watchCount ∨ (b.breakPresent = true ∧ 1099511627775 < b.breakTime) ∨
        watch.length < named.length then .clamped else .ok)
      watch.length (named.countP fun x => decide (s.journal.deviceCount ≤ x)) 0) := by
  intro w b named watch brk
  refine (congrArg Host.Outcome.next (withView_taken taken names _)).trans ?_
  have result : okOr (blockMoved 48 d.position || decide (16 < b.watchCount) ||
      (b.breakPresent && decide (Config.maxTime < b.breakTime)) || decide (watch.length < named.length)) =
      if 512000 < 8 * d.position + 48 ∨ 16 < b.watchCount ∨ (b.breakPresent = true ∧ 1099511627775 < b.breakTime) ∨
        watch.length < named.length then .clamped else .ok := by
    rw [← okOr_decide]
    refine congrArg okOr (Bool.eq_iff_iff.2 ?_)
    simp only [Bool.or_eq_true, Bool.and_eq_true, blockMoved, decide_eq_true_eq, or_assoc]
    rfl
  have missing : named.length - (named.filter fun x => decide (x < s.journal.deviceCount)).length =
      named.countP fun x => decide (s.journal.deviceCount ≤ x) := by
    have total := List.length_eq_countP_add_countP (fun x => decide (x < s.journal.deviceCount)) (l := named)
    rw [← List.countP_eq_length_filter, total, Nat.add_sub_cancel_left]
    exact List.countP_congr fun x _ => by simp
  dsimp only
  rw [result, missing]
  rfl

end

/-- Settles O35: each setting is one write of the view and a completion. -/
theorem marksSettingsAndClose : Obligations.MarksSettingsAndClose := by
  refine ⟨fun s n p d v names => ⟨fun taken => ?_, fun taken code speed limit hcode hspeed hlimit => ?_⟩,
    fun s n p d v taken names => ?_, fun s n p d v taken names => ?_, fun s n p d v taken names => ?_⟩
  case refine_1 => exact taken.completes rfl (exec_mark names taken)
  case refine_2 =>
    subst hcode hspeed hlimit
    exact taken.completes rfl (exec_setPace names taken)
  case refine_3 =>
    have freed := freeView_eq s v
    refine ⟨freeView s v, ?_, ?_, fun a outside => freeView_byteAt s v outside,
      taken.completes ?_ (exec_closeView names taken)⟩
    · rw [freed]
      rfl
    · rw [← freeView_view]
      exact freeView_stands s v
    · rw [freed]
      rfl
  case refine_4 =>
    intro w a b named brk
    refine ⟨keepOnce (named.filter fun x => decide (x < s.journal.deviceCount)), keepOnce_nodup _, fun x => ?_,
      (keepOnce_sublist _).trans List.filter_sublist, ?_⟩
    · rw [mem_keepOnce, List.mem_filter, decide_eq_true_eq]
    · have told : Frame.breakChanged = fun f => { f with phase := match f.phase with
          | .delaying _ => .delaying true
          | k => k } := by
        funext ⟨count, blocks, cls, gapFrom, phase⟩
        cases phase <;> rfl
      have run := exec_setStops names taken
      rw [told] at run
      exact taken.completes rfl run
  case refine_5 =>
    intro w b named ranges u
    obtain ⟨ended, only⟩ := complete_spec u n
      (if 8 < b.rangeCount ∨ (∃ r ∈ named, 4095 < r.1 ∨ 4095 < r.2) ∨ ranges.length < named.length then .clamped else .ok)
      ranges.length (named.length - ranges.length) 0 p ⟨n, d, false⟩ taken.1
    exact ⟨_, only, ended, exec_setFilter names taken⟩

end Sys2Proof.Machine
end

section
/-! PROOFS. Frames: how far they extend, when they are final, and what a RUNNING view does next (R89, R90, R92 to R94,
R103). -/

namespace Sys2Proof.Machine

/-! ### The longest run of a list's front, up to a capacity -/

/-- The front of a list that passes a test, at most `m` of it: its members pass, and it ends at the capacity, at the
list's end or before a member that fails. -/
theorem takeWhile_take_spec {α : Type} (f : α → Bool) (m : Nat) (l : List α) :
    ((l.take m).takeWhile f).length ≤ m ∧ ((l.take m).takeWhile f).length ≤ l.length ∧
    (∀ (i : Nat) (h : i < l.length), i < ((l.take m).takeWhile f).length → f l[i] = true) ∧
    (((l.take m).takeWhile f).length = m ∨ ((l.take m).takeWhile f).length = l.length ∨
      ∃ h : ((l.take m).takeWhile f).length < l.length, f l[((l.take m).takeWhile f).length] = false) := by
  induction l generalizing m with
  | nil => simp
  | cons x l ih =>
    cases m with
    | zero => simp
    | succ m =>
      cases pass : f x
      · simp [pass]
      · obtain ⟨cap, fits, all, ends⟩ := ih m
        simp only [List.take_succ_cons, List.takeWhile_cons, pass, if_true, List.length_cons]
        refine ⟨by omega, by omega, fun i hi below => ?_, ?_⟩
        · cases i with
          | zero => exact pass
          | succ i => exact all i (by simpa using hi) (by omega)
        · rcases ends with ends | ends | ⟨more, fails⟩
          · exact Or.inl (by omega)
          · exact Or.inr (Or.inl (by omega))
          · exact Or.inr (Or.inr ⟨by omega, by simpa using fails⟩)

/-! ### Entries by position (R78) -/

theorem entriesBetween_length {s : State} {a b : Nat} (held : b ≤ s.dram.journal.length) :
    (entriesBetween s a b).length = b - a := by
  simp [entriesBetween, Nat.min_eq_left held]

theorem entriesBetween_getElem {s : State} {a b i : Nat} (h : i < (entriesBetween s a b).length) :
    (entriesBetween s a b)[i] = entryAt s (a + i) := by
  have below : a + i < s.dram.journal.length := by simp [entriesBetween] at h; omega
  simp [entriesBetween, entryAt, List.getElem?_eq_getElem below]

theorem countBelow_le (s : State) (t : Nat) : countBelow s t ≤ s.journal.committed ∧ countBelow s t ≤ s.dram.journal.length := by
  have h : countBelow s t ≤ (committedEntries s).length := List.countP_le_length
  simp only [committedEntries, List.length_take] at h
  omega

theorem windowLimit_le {s : State} (held : s.journal.committed ≤ s.dram.journal.length) (c : ViewContext) :
    windowLimit s c ≤ s.dram.journal.length := by
  unfold windowLimit
  split
  next t _ =>
    have h : countUpTo s t ≤ (committedEntries s).length := List.countP_le_length
    simp only [committedEntries, List.length_take] at h
    omega
  next => exact held

/-! ### How far a frame extends (R89, R90) -/

section
variable {s : State} {c : ViewContext}

/-- A forward frame is the front of the window's entries from the cursor on, within the width of its first one. -/
theorem forwardCount_eq (held : windowLimit s c ≤ s.dram.journal.length) (room : c.cursor < windowLimit s c) :
    forwardCount s c = (((entriesBetween s c.cursor (windowLimit s c)).take 256).takeWhile fun x =>
      decide (x.time ≤ (entryAt s c.cursor).time + c.width)).length := by
  have length := entriesBetween_length (a := c.cursor) held
  have first : 0 < (entriesBetween s c.cursor (windowLimit s c)).length := by omega
  have head := entriesBetween_getElem first
  unfold forwardCount
  split
  next nil => simp [nil] at first
  next e es cons =>
    simp only [cons, List.getElem_cons_zero, Nat.add_zero] at head
    rw [cons, head]
    rfl

theorem backwardCount_eq (held : c.cursor ≤ s.dram.journal.length) (room : windowBase s c < c.cursor) :
    backwardCount s c = (((entriesBetween s (windowBase s c) c.cursor).reverse.take 256).takeWhile fun x =>
      decide ((entryAt s (c.cursor - 1)).time ≤ x.time + c.width)).length := by
  have length := entriesBetween_length (a := windowBase s c) held
  have first : 0 < (entriesBetween s (windowBase s c) c.cursor).reverse.length := by rw [List.length_reverse]; omega
  have head : (entriesBetween s (windowBase s c) c.cursor).reverse[0] = entryAt s (c.cursor - 1) := by
    rw [List.getElem_reverse, entriesBetween_getElem, length]
    congr 1
    omega
  unfold backwardCount
  split
  next nil => simp [nil] at first
  next e es cons =>
    simp only [cons, List.getElem_cons_zero] at head
    rw [cons, head]
    rfl

/-- A forward frame's extent (R89). -/
theorem forwardCount_spec (held : windowLimit s c ≤ s.dram.journal.length) (room : c.cursor < windowLimit s c) :
    1 ≤ forwardCount s c ∧ forwardCount s c ≤ 256 ∧ c.cursor + forwardCount s c ≤ windowLimit s c ∧
    (∀ i < forwardCount s c, (entryAt s (c.cursor + i)).time ≤ (entryAt s c.cursor).time + c.width) ∧
    (forwardCount s c = 256 ∨ c.cursor + forwardCount s c = windowLimit s c ∨
      (entryAt s c.cursor).time + c.width < (entryAt s (c.cursor + forwardCount s c)).time) := by
  have length := entriesBetween_length (a := c.cursor) held
  obtain ⟨cap, fits, all, ends⟩ := takeWhile_take_spec (fun x : Entry =>
    decide (x.time ≤ (entryAt s c.cursor).time + c.width)) 256 (entriesBetween s c.cursor (windowLimit s c))
  rw [← forwardCount_eq held room] at cap fits all ends
  simp only [entriesBetween_getElem, decide_eq_true_eq, decide_eq_false_iff_not] at all ends
  refine ⟨Nat.pos_of_ne_zero fun none => ?_, cap, by omega, fun i hi => all i (by omega) hi, ?_⟩
  · rcases ends with full | spent | ⟨-, fails⟩
    · omega
    · omega
    · rw [none] at fails
      simp at fails
  · rcases ends with full | spent | ⟨-, fails⟩
    · exact Or.inl full
    · exact Or.inr (Or.inl (by omega))
    · exact Or.inr (Or.inr (by omega))

/-- A backward frame's extent (R90). -/
theorem backwardCount_spec (held : c.cursor ≤ s.dram.journal.length) (room : windowBase s c < c.cursor) :
    1 ≤ backwardCount s c ∧ backwardCount s c ≤ 256 ∧ windowBase s c + backwardCount s c ≤ c.cursor ∧
    (∀ i < backwardCount s c, (entryAt s (c.cursor - 1)).time ≤ (entryAt s (c.cursor - 1 - i)).time + c.width) ∧
    (backwardCount s c = 256 ∨ windowBase s c + backwardCount s c = c.cursor ∨
      (entryAt s (c.cursor - 1 - backwardCount s c)).time + c.width < (entryAt s (c.cursor - 1)).time) := by
  have length := entriesBetween_length (a := windowBase s c) held
  have entry : ∀ (i : Nat) (h : i < (entriesBetween s (windowBase s c) c.cursor).reverse.length),
      (entriesBetween s (windowBase s c) c.cursor).reverse[i] = entryAt s (c.cursor - 1 - i) := fun i h => by
    rw [List.length_reverse] at h
    rw [List.getElem_reverse, entriesBetween_getElem, length]
    congr 1
    omega
  obtain ⟨cap, fits, all, ends⟩ := takeWhile_take_spec (fun x : Entry =>
    decide ((entryAt s (c.cursor - 1)).time ≤ x.time + c.width)) 256 (entriesBetween s (windowBase s c) c.cursor).reverse
  rw [← backwardCount_eq held room] at cap fits all ends
  simp only [entry, decide_eq_true_eq, decide_eq_false_iff_not, List.length_reverse] at fits all ends
  refine ⟨Nat.pos_of_ne_zero fun none => ?_, cap, by omega, fun i hi => all i (by omega) hi, ?_⟩
  · rcases ends with full | spent | ⟨-, fails⟩
    · omega
    · omega
    · rw [none] at fails
      simp at fails
  · rcases ends with full | spent | ⟨-, fails⟩
    · exact Or.inl full
    · exact Or.inr (Or.inl (by omega))
    · exact Or.inr (Or.inr (by omega))

/-- When a forward frame is final (R94): it can take no later entry. -/
theorem frameFinal_forward (forward : c.direction = .forward) (n : Nat) : frameFinal s c n = true ↔
    n = 256 ∨ s.journal.state = .sealed ∨ ∃ k, s.merge.settled = some k ∧
      ((entryAt s c.cursor).time + c.width < k.time ∨ ∃ e, c.windowEnd = some e ∧ e < k.time) := by
  unfold frameFinal
  rw [forward]
  simp only [Bool.or_eq_true, beq_iff_eq, Config.frameCapacity, or_assoc]
  refine or_congr_right (or_congr_right ?_)
  cases s.merge.settled <;> cases c.windowEnd <;> simp

end

/-! ### What a RUNNING view does next (R92, R93, R103) -/

/-- The stop at the limit of a window that ends below the committed position. -/
theorem edgeStop_windowEnd {s : State} {c : ViewContext} (below : windowLimit s c < s.journal.committed) :
    edgeStop s c = some .windowEnd := by
  unfold edgeStop
  rw [if_neg below.ne, if_pos below]
  split <;> rfl

theorem edgeStop_journalEnd {s : State} {c : ViewContext} (closed : s.journal.state = .sealed)
    (all : windowLimit s c = s.journal.committed) : edgeStop s c = some .journalEnd := by
  unfold edgeStop
  rw [if_pos closed, if_pos all]

/-- Where the window can grow the view waits. -/
theorem edgeStop_none {s : State} {c : ViewContext} (growing : s.journal.state ≠ .sealed)
    (all : s.journal.committed ≤ windowLimit s c) : edgeStop s c = none := by
  unfold edgeStop
  rw [if_neg growing, if_neg (by omega)]

section
variable {s : State} {v : Slot}

theorem formFrame_rebuilding (rebuilding : s.journal.state = .rebuilding) : formFrame s v = s := if_pos rebuilding

theorem formFrame_backward_room (ready : s.journal.state ≠ .rebuilding) (backward : s.views[v].ctx.direction = .backward)
    (room : windowBase s s.views[v].ctx < s.views[v].ctx.cursor) : formFrame s v = beginFrame s v := by
  unfold formFrame
  simp only [if_neg ready, backward, if_pos room]

theorem formFrame_backward_stops (ready : s.journal.state ≠ .rebuilding) (backward : s.views[v].ctx.direction = .backward)
    (base : s.views[v].ctx.cursor ≤ windowBase s s.views[v].ctx) : formFrame s v = stopView s v .windowEnd 0 := by
  unfold formFrame
  simp only [if_neg ready, backward, if_neg base.not_gt]

theorem formFrame_forward_room (ready : s.journal.state ≠ .rebuilding) (forward : s.views[v].ctx.direction = .forward)
    (room : s.views[v].ctx.cursor < windowLimit s s.views[v].ctx) : formFrame s v = beginFrame s v := by
  unfold formFrame
  simp only [if_neg ready, forward, if_pos room]

theorem formFrame_forward_stops (ready : s.journal.state ≠ .rebuilding) (forward : s.views[v].ctx.direction = .forward)
    (limit : windowLimit s s.views[v].ctx ≤ s.views[v].ctx.cursor) {cause : StopCause}
    (stops : edgeStop s s.views[v].ctx = some cause) : formFrame s v = stopView s v cause 0 := by
  unfold formFrame
  simp only [if_neg ready, forward, if_neg limit.not_gt, stops]

theorem formFrame_forward_waits (ready : s.journal.state ≠ .rebuilding) (forward : s.views[v].ctx.direction = .forward)
    (limit : windowLimit s s.views[v].ctx ≤ s.views[v].ctx.cursor) (waits : edgeStop s s.views[v].ctx = none) :
    formFrame s v = (s.setView v { s.views[v] with atEdge := true }).writeViewStatus v := by
  unfold formFrame
  simp only [if_neg ready, forward, if_neg limit.not_gt, waits]

/-- The formation of a frame: its class and gap fixed, its first read asked for. -/
theorem beginFrame_eq (s : State) (v : Slot) :
    let w := s.views[v]
    let cls : RequestClass := if w.step = none ∧ w.ctx.mode = .paced then .a else .b
    beginFrame s v = { s with
      views := s.views.set v { w with
        frame := some ⟨0, 0, cls, if w.noGap then none else w.lastFrameTime, .reading⟩, noGap := false, atEdge := false }
      arbiter := s.arbiter.submit (.view v) [⟨.view v, cls, .frameRead, false⟩] } := by
  intro w cls
  have same : (if w.step.isNone && w.ctx.mode == .paced then RequestClass.a else .b) = cls := by
    simp [cls]
  unfold beginFrame
  dsimp only
  rw [same]
  rfl

end

/-- Settles O39: the front of the window's entries in the view's direction, and the branches of the edge. -/
theorem framesAndEdges : Obligations.FramesAndEdges := by
  refine ⟨fun s c held => ⟨forwardCount_spec (windowLimit_le held c), fun room low =>
      backwardCount_spec (low.trans held) room, fun forward => ?_, fun backward => ?_, frameFinal_forward, fun backward n => ?_⟩,
    fun s v => ?_⟩
  · unfold frameNeeds
    rw [forward]
  · unfold frameNeeds
    rw [backward]
  · unfold frameFinal
    rw [backward]
  intro w c asks
  refine ⟨formFrame_rebuilding, fun ready => ⟨fun backward room => ?_, fun backward base => ?_, fun forward room => ?_,
    fun forward limit => ⟨fun below => ?_, fun closed all => ?_, fun growing all => ?_⟩⟩⟩
  · exact (formFrame_backward_room ready backward room).trans (beginFrame_eq s v)
  · exact formFrame_backward_stops ready backward base
  · exact (formFrame_forward_room ready forward room).trans (beginFrame_eq s v)
  · exact formFrame_forward_stops ready forward limit (edgeStop_windowEnd below)
  · exact formFrame_forward_stops ready forward limit (edgeStop_journalEnd closed all)
  · exact formFrame_forward_waits ready forward limit (edgeStop_none growing all)

end Sys2Proof.Machine
end

section
/-! PROOFS. Views at a commit, at the sealing and at the end of a frame's reading: carries, the edge, and the hand-over of
a final frame (R79, R92 to R94, R107, R108, R116). -/

namespace Sys2Proof.Machine

/-! ### A view set with its status record -/

/-- A view set and its status record written: what changes, the record, and the bytes left. -/
theorem setView_status_spec (s : State) (v : Slot) (x : View) :
    (s.setView v x).wrote [statusWrite v x] = { s with
      ring := { s.ring with
        replica := ((s.setView v x).wrote [statusWrite v x]).ring.replica
        own := ((s.setView v x).wrote [statusWrite v x]).ring.own }
      views := s.views.set v x } ∧
    Stands ((s.setView v x).wrote [statusWrite v x]) (Config.viewStatusAddr v) (viewStatusBytes x) ∧
    ∀ a, ¬ InBytes a (Config.viewStatusAddr v) 64 → ((s.setView v x).wrote [statusWrite v x]).byteAt a = s.byteAt a :=
  ⟨rfl, wrote_status_stands _ [] v x, fun _ outside => wrote_status_byteAt _ v x outside⟩

/-! ### The hand-over of a final frame (R92, R108) -/

/-- A frame's delay follows from its class and its gap's start, and from the view's context and STEP. -/
theorem frameDelay_congr {s t : State} {w x : View} {f g : Frame} (dram : t.dram = s.dram) (ctx : x.ctx = w.ctx)
    (step : x.step = w.step) (cls : g.cls = f.cls) (gap : g.gapFrom = f.gapFrom) :
    frameDelay t x g = frameDelay s w f := by
  unfold frameDelay frameGap entryAt
  rw [dram, ctx, step, cls, gap]

section
variable {s : State} {v : Slot} {f : Frame}

theorem handOver_of_no_delay (at_once : frameDelay s s.views[v] f = 0) : handOver s v f = releaseFrame s v f := if_pos at_once

theorem handOver_of_delay (delayed : frameDelay s s.views[v] f ≠ 0) : handOver s v f = s.setView v { s.views[v] with
    frame := some { f with phase := .delaying false }, timer := some (loadTimer (frameDelay s s.views[v] f)) } := if_neg delayed

end

/-! ### The edge (R93, R94) -/

/-- A view that waits AT_EDGE no longer. -/
def View.offEdge (w : View) (frame : Option Frame) : View := { w with atEdge := false, noGap := true, frame := frame }

section
variable {s : State} {v : Slot}

theorem edgeUpdate_forms (idle : s.views[v].frame = none) (risen : s.views[v].ctx.cursor < windowLimit s s.views[v].ctx) :
    let x := s.views[v].offEdge s.views[v].frame
    edgeUpdate s v = formFrame ((s.setView v x).wrote [statusWrite v x]) v := by
  intro x
  unfold edgeUpdate
  dsimp only
  split
  next =>
    rw [if_pos risen, setView_writeViewStatus]
    rfl
  next f formed => cases idle.symm.trans formed

theorem edgeUpdate_stops {cause : StopCause} (idle : s.views[v].frame = none)
    (limit : windowLimit s s.views[v].ctx ≤ s.views[v].ctx.cursor) (stops : edgeStop s s.views[v].ctx = some cause) :
    edgeUpdate s v = stopView s v cause 0 := by
  unfold edgeUpdate
  simp only [idle, if_neg limit.not_gt, stops]

theorem edgeUpdate_waits (idle : s.views[v].frame = none) (limit : windowLimit s s.views[v].ctx ≤ s.views[v].ctx.cursor)
    (waits : edgeStop s s.views[v].ctx = none) : edgeUpdate s v = s := by
  unfold edgeUpdate
  simp only [idle, if_neg limit.not_gt, waits]

/-- A frame that waits takes in the new entry. -/
theorem edgeUpdate_frame_open {f : Frame} (waiting : s.views[v].frame = some f)
    (growing : ¬ frameFinal s s.views[v].ctx (frameCount s s.views[v].ctx) = true) :
    edgeUpdate s v = { s with views := s.views.set v { s.views[v] with
      frame := some { f with count := frameCount s s.views[v].ctx } } } := by
  unfold edgeUpdate
  simp only [waiting, if_neg growing]
  rfl

/-- A frame that waits and is final is handed over. -/
theorem edgeUpdate_frame_final {f : Frame} (waiting : s.views[v].frame = some f)
    (final : frameFinal s s.views[v].ctx (frameCount s s.views[v].ctx) = true) :
    let g := { f with count := frameCount s s.views[v].ctx }
    let x := s.views[v].offEdge (some g)
    edgeUpdate s v = handOver ((s.setView v x).wrote [statusWrite v x]) v g := by
  intro g x
  unfold edgeUpdate
  simp only [waiting, if_pos final, setView_writeViewStatus]
  rfl

end

/-- Settles O40: the carry's list of writes, and the branches of the edge. -/
theorem carriesAndEdges : Obligations.CarriesAndEdges := by
  refine ⟨fun s p v => ?_, fun s v => ?_⟩
  · intro w e carried waits
    refine ⟨fun carries => ?_, fun stays waiting => (if_neg stays).trans (if_pos waiting),
      fun stays moves => (if_neg stays).trans (if_neg moves), fun waiting => if_pos waiting, fun moves => if_neg moves⟩
    intro old image t
    have done : t = carryView s v := if_pos carries
    obtain ⟨-, rfl, -⟩ := carries
    rw [carryView_eq] at done
    have view : t.views[v] = w.carried := by
      rw [done]
      exact State.setView_get_self s v _
    refine ⟨?_, ?_, fun up => ⟨changedWords old image [e.device], changedWords_sorted _ _ _, mem_changedWords fun d other => ?_, ?_⟩⟩
    · rw [done]
      rfl
    · rw [view, done]
      exact wrote_status_stands _ _ _ _
    · exact (Image.at_put _ _ _ _).trans (if_neg (by simpa using other))
    · rw [view, done]
      exact wrote_own up _
  · intro w limit leaves
    refine ⟨fun idle => ⟨fun risen => ?_, fun low => ⟨fun below => ?_, fun closed all => ?_, fun growing all => ?_⟩⟩,
      fun f waiting => ?_⟩
    · exact ⟨_, setView_status_spec s v _, edgeUpdate_forms idle risen⟩
    · exact edgeUpdate_stops idle low (edgeStop_windowEnd below)
    · exact edgeUpdate_stops idle low (edgeStop_journalEnd closed all)
    · exact edgeUpdate_waits idle low (edgeStop_none growing all)
    · intro g final delay
      refine ⟨fun growing => edgeUpdate_frame_open waiting growing, fun done => ⟨_, setView_status_spec s v _, ?_⟩⟩
      have view : ((s.setView v (w.offEdge (some g))).wrote [statusWrite v (w.offEdge (some g))]).views[v] =
          w.offEdge (some g) := State.setView_get_self s v _
      have same : frameDelay ((s.setView v (w.offEdge (some g))).wrote [statusWrite v (w.offEdge (some g))])
          (w.offEdge (some g)) g = delay := frameDelay_congr rfl rfl rfl rfl rfl
      rw [edgeUpdate_frame_final waiting done]
      refine ⟨fun at_once => handOver_of_no_delay (by rw [view, same, at_once]), fun delayed => ?_⟩
      rw [handOver_of_delay (by rw [view, same]; exact delayed), view, same, wrote_setView, setView_setView]
      rfl

/-! ### The end of a frame's reading (R92, R94, R116) -/

theorem readStops_iff (s : State) (w : View) (f : Frame) :
    readStops s w f = true ↔ f.blocks = 0 ∧ w.armed = some true ∧ frameBeyond s w.ctx = true := by
  simp [readStops, and_assoc]

section
variable {s : State} {v : Slot} {f : Frame}

theorem exec_frameReadEnd (granted : frameReadGranted s v = true) (formed : s.views[v].frame = some f)
    (reading : f.phase = .reading)
    (ends : readStops s s.views[v] f = true ∨ frameNeeds s s.views[v].ctx ≤ 64 * (f.blocks + 1)) :
    exec (.frameReadEnd v) s = .next (frameBlockRead s.finishTransfer v) := by
  have last : frameReadEnds s v = true := by
    unfold frameReadEnds
    simp only [formed, reading, beq_self_eq_true, Bool.true_and, Bool.or_eq_true, decide_eq_true_eq]
    exact ends
  exact congrArg Host.Outcome.next (if_pos (by rw [granted, last]; rfl))

theorem frameBlockRead_stops (formed : s.views[v].frame = some f) (stops : readStops s s.views[v] f = true) :
    frameBlockRead s v = stopView s v .breakTime 0 := by
  unfold frameBlockRead
  simp only [formed, if_pos stops]

/-- The view with one more block of its frame `f` read: the first block decides a break arming that is clear. -/
def View.blockRead (w : View) (f : Frame) (beyond : Bool) : View := { w with
  frame := some { f with blocks := f.blocks + 1 }
  armed := if w.armed = none ∧ f.blocks = 0 then some (w.ctx.breakTime.isSome && !beyond) else w.armed }

/-- The reading of a frame ends with the block that brings what it needs. -/
theorem frameBlockRead_ends (formed : s.views[v].frame = some f) (goes : readStops s s.views[v] f = false)
    (needs : frameNeeds s s.views[v].ctx ≤ 64 * (f.blocks + 1)) :
    frameBlockRead s v = frameRead (s.setView v (s.views[v].blockRead f (frameBeyond s s.views[v].ctx))) v
      { f with blocks := f.blocks + 1 } := by
  unfold frameBlockRead
  simp only [formed, goes, Bool.false_eq_true, if_false]
  exact if_pos needs

section
variable {x : View}

/-- The frame `f` read whole, of the view `x` just set. -/
def readWhole (s : State) (x : View) (f : Frame) : Frame := { f with count := frameCount s x.ctx }

/-- A frame read whole and final is released at once, or after its delay. -/
theorem frameRead_final (final : frameFinal s x.ctx (frameCount s x.ctx) = true) :
    let g := readWhole s x f
    let delay := frameDelay s x f
    (delay = 0 → frameRead (s.setView v x) v f = releaseFrame (s.setView v { x with frame := some g }) v g) ∧
    (delay ≠ 0 → frameRead (s.setView v x) v f = s.setView v { x with
      frame := some { g with phase := .delaying false }, timer := some (loadTimer delay) }) := by
  intro g delay
  have view := State.setView_get_self s v { x with frame := some g }
  have same : frameDelay (s.setView v { x with frame := some g }) { x with frame := some g } g = delay :=
    frameDelay_congr rfl rfl rfl rfl rfl
  have read : frameRead (s.setView v x) v f = handOver (s.setView v { x with frame := some g }) v g := by
    unfold frameRead
    rw [State.setView_get_self]
    dsimp only
    rw [setView_setView]
    exact if_pos final
  rw [read]
  refine ⟨fun at_once => handOver_of_no_delay (by rw [view, same, at_once]), fun delayed => ?_⟩
  rw [handOver_of_delay (by rw [view, same]; exact delayed), view, same, setView_setView]

/-- A frame read whole and not final waits AT_EDGE. -/
theorem frameRead_open (growing : ¬ frameFinal s x.ctx (frameCount s x.ctx) = true) :
    let y : View := { x with frame := some { readWhole s x f with phase := .atEdge }, atEdge := true }
    frameRead (s.setView v x) v f = (s.setView v y).wrote [statusWrite v y] := by
  intro y
  unfold frameRead
  rw [State.setView_get_self]
  dsimp only
  rw [setView_setView, setView_writeViewStatus, setView_setView]
  exact if_neg growing

end

end

/-- Settles O41: the break test of the first block, and then the frame's hand-over or its wait. -/
theorem frameReadEnds_spec : Obligations.FrameReadEnds := by
  intro s v f granted formed reading w beyond stops armed g final delay
  refine ⟨fun stop => ?_, fun goes needs => ?_⟩
  · have stop : readStops s w f = true := (readStops_iff s w f).2 stop
    rw [exec_frameReadEnd granted formed reading (Or.inl stop)]
    exact congrArg Host.Outcome.next (frameBlockRead_stops (s := s.finishTransfer) formed stop)
  have goes : readStops s w f = false := Bool.eq_false_iff.2 (mt (readStops_iff s w f).1 goes)
  rw [exec_frameReadEnd granted formed reading (Or.inr needs),
    frameBlockRead_ends (s := s.finishTransfer) formed goes needs]
  refine ⟨fun growing => ?_, fun done at_once => ?_, fun done delayed => ?_⟩
  · obtain ⟨frame, shown, outside⟩ := setView_status_spec s.finishTransfer v { w.blockRead f beyond with
      frame := some { g with phase := .atEdge }, atEdge := true }
    refine ⟨_, congrArg Host.Outcome.next (frameRead_open (s := s.finishTransfer) growing), frame, ?_, outside⟩
    rw [wrote_views, State.setView_get_self]
    exact shown
  · exact congrArg Host.Outcome.next ((frameRead_final (s := s.finishTransfer) (x := w.blockRead f beyond)
      (f := { f with blocks := f.blocks + 1 }) done).1 at_once)
  · exact congrArg Host.Outcome.next ((frameRead_final (s := s.finishTransfer) (x := w.blockRead f beyond)
      (f := { f with blocks := f.blocks + 1 }) done).2 delayed)

end Sys2Proof.Machine
end

section
/-! PROOFS. The publication of a frame: the image's words, the CHANGE records, the stop tests, and what follows (R83, R91,
R117, R123, R127, R130, R131). -/

namespace Sys2Proof.Machine

/-! ### A published image after a revision (R131) -/

/-- Words of a slot's image area written from an image: the bytes of those words are the image's, the others stand. -/
theorem wrote_words_byteAt (v : Slot) (img : Image) (d : Nat) (ws : List Nat) (s : State) :
    (s.wrote (ws.map fun i => (Config.imageAddr v + 8 * i, imageBytes img (8 * i) 8))).byteAt (Config.imageAddr v + d) =
      if d / 8 ∈ ws then (img.at d).encode else s.byteAt (Config.imageAddr v + d) := by
  induction ws generalizing s with
  | nil => rw [List.map_nil, wrote_nil, if_neg (by simp)]
  | cons i ws ih =>
    rw [List.map_cons, wrote_cons_byteAt, ih]
    by_cases here : d / 8 = i
    · have len : d % 8 < (imageBytes img (8 * i) 8).length := by rw [imageBytes_length]; omega
      have byte := (partWrite_stands s (Config.imageAddr v + 8 * i) (imageBytes img (8 * i) 8)).byteAt len
      rw [imageBytes_getElem _ (by omega), show Config.imageAddr v + 8 * i + d % 8 = Config.imageAddr v + d by omega,
        show 8 * i + d % 8 = d by omega] at byte
      rw [byte, ite_self, if_pos (List.mem_cons.2 (Or.inl here))]
    · have apart : ¬ InBytes (Config.imageAddr v + d) (Config.imageAddr v + 8 * i) (imageBytes img (8 * i) 8).length := by
        rw [imageBytes_length]
        unfold InBytes
        omega
      rw [partWrite_byteAt _ _ _ _ apart]
      simp [here]

/-- Writes below the image areas leave every image byte. -/
theorem wrote_below_image {s : State} {ws : List (Nat × List Byte)} (below : ∀ w ∈ ws, w.1 + w.2.length ≤ 0xA00000)
    (v : Slot) (d : Nat) : (s.wrote ws).byteAt (Config.imageAddr v + d) = s.byteAt (Config.imageAddr v + d) :=
  wrote_byteAt fun w hw => by
    have := below w hw
    have := imageAddr_bounds v
    unfold InBytes
    omega

theorem counterWrite_below_image (v : Slot) (value : BitVec 32) :
    ∀ w ∈ [counterWrite v value], w.1 + w.2.length ≤ 0xA00000 := by
  intro w hw
  have := viewStatusAddr_bounds v
  rw [List.mem_singleton.1 hw]
  simp only [counterWrite, List.length_append, leBytes_length, zeros_length]
  omega

/-- A published image that stands in its area stands there after a revision. -/
theorem revision_shows {s : State} {v : Slot} {c : ViewContext} {old new : Image} {ds : List Nat}
    (published : c.published = true) (same : ∀ d, d ∉ ds → new.at d = old.at d)
    (shown : ∀ d < 32768, s.byteAt (Config.imageAddr v + d) = (old.at d).encode) :
    ∀ d < 32768, (s.wrote (revisionWrites v c old new ds)).byteAt (Config.imageAddr v + d) = (new.at d).encode := by
  intro d hd
  unfold revisionWrites
  rw [if_pos published, ← wrote_wrote, ← wrote_wrote, wrote_below_image (counterWrite_below_image v _), wrote_words_byteAt,
    wrote_below_image (counterWrite_below_image v _)]
  split
  next => rfl
  next unchanged =>
    rw [mem_changedWords same, not_not] at unchanged
    have byte := List.getElem_of_eq unchanged (i := d % 8) (by rw [imageBytes_length]; omega)
    rw [imageBytes_getElem _ (by omega), imageBytes_getElem _ (by omega), show 8 * (d / 8) + d % 8 = d by omega] at byte
    rw [shown d hd, byte]

/-! ### The CHANGE records in the delta ring (R121, R123) -/

/-- Records of one publication lie in records of the ring of their own. -/
theorem deltaEntry_apart (v : Slot) (i : Nat) {j k x : Nat} (below : j < k) (near : k < j + 4096)
    (here : InBytes x (Config.deltaEntry v ((i + j) % 65536 % 4096)) 32) :
    ¬ InBytes x (Config.deltaEntry v ((i + k) % 65536 % 4096)) 32 := by
  unfold InBytes Config.deltaEntry at *
  omega

/-- Each record written stands in the ring where no later write reaches the ring. -/
theorem recordWrites_stands (s : State) (before : List (Nat × List Byte)) (v : Slot) (i : Nat) {records : List (List Byte)}
    (len : ∀ r ∈ records, r.length = 32) (fits : records.length ≤ 4096) {after : List (Nat × List Byte)}
    (apart : ∀ w ∈ after, w.1 + w.2.length ≤ 0x900000) (j : Nat) (hj : j < records.length) :
    Stands (s.wrote (before ++ recordWrites v i records ++ after)) (Config.deltaEntry v ((i + j) % 65536 % 4096))
      records[j] := by
  have split_at : recordWrites v i records = (recordWrites v i records).take j ++
      (Config.deltaEntry v ((i + j) % 65536 % 4096), records[j]) :: (recordWrites v i records).drop (j + 1) := by
    have hj' : j < (recordWrites v i records).length := by simpa [recordWrites] using hj
    have here : (recordWrites v i records)[j] = (Config.deltaEntry v ((i + j) % 65536 % 4096), records[j]) := by
      simp only [recordWrites, List.getElem_map, List.getElem_zipIdx, Nat.zero_add]
    rw [← here, List.getElem_cons_drop, List.take_append_drop]
  rw [split_at, ← List.append_assoc before, List.append_assoc, List.cons_append]
  have wide : records[j].length = 32 := len _ (List.getElem_mem hj)
  refine wrote_stands _ fun w hw x hx => ?_
  rw [wide] at hx
  rcases List.mem_append.1 hw with later | low
  · obtain ⟨k, hk, rfl⟩ := List.mem_drop_iff_getElem.1 later
    have hk' : j + 1 + k < records.length := by
      rw [recordWrites, List.length_map, List.length_zipIdx] at hk
      omega
    simp only [recordWrites, List.getElem_map, List.getElem_zipIdx, Nat.zero_add]
    rw [len _ (List.getElem_mem hk')]
    exact deltaEntry_apart v i (by omega) (by omega) hx
  · have := apart w low
    have := deltaEntry_bounds v ((i + j) % 65536)
    unfold InBytes at *
    omega

/-! ### What follows a publication: a stop or the next frame -/

/-- What a stop, or the forming of a next frame, keeps of what a frame's publication has left. -/
structure KeepsPublished (s t : State) (v : Slot) : Prop where
  view : AtView s t v
  dram : t.dram = s.dram
  cursor : t.views[v].ctx.cursor = s.views[v].ctx.cursor
  cursorTime : t.views[v].ctx.cursorTime = s.views[v].ctx.cursorTime
  counter : t.views[v].ctx.counter = s.views[v].ctx.counter
  lastFrameTime : t.views[v].lastFrameTime = s.views[v].lastFrameTime
  own : HoldsMore s t
  /-- The delta rings and the images stand, but for the record free next. -/
  bytes : ∀ a, 0x900000 ≤ a →
    (1 ≤ deltaFree s v → ¬ InBytes a (Config.deltaEntry v (s.views[v].producer.toNat % 4096)) 32) → t.byteAt a = s.byteAt a

/-- A view status record lies below the delta rings and the images. -/
theorem statusWrite_below (v : Slot) (w : View) : (statusWrite v w).1 + (statusWrite v w).2.length ≤ 0x900000 := by
  rw [statusWrite, viewStatusBytes_length]
  exact (viewStatusAddr_bounds v).2

theorem KeepsPublished.refl (s : State) (v : Slot) : KeepsPublished s s v :=
  ⟨AtView.refl s v, rfl, rfl, rfl, rfl, rfl, HoldsMore.refl s, fun _ _ _ => rfl⟩

theorem stopView_keepsPublished (s : State) (v : Slot) (cause : StopCause) (device : Nat) :
    KeepsPublished s (stopView s v cause device) v := by
  have view := stopView_view_eq s v cause device
  have room := atPorts_evaluateRoom (stopHeld s v cause device) v
  have raised := atPorts_stopRaised s v cause device
  have ended := atPorts_stopView s v cause device
  rw [stopMarked_eq] at raised
  have own : HoldsMore s (stopRaised s v cause device) := HoldsMore.trans (s := stopHeld s v cause device)
    (room.own.trans (wrote_holdsMore _ _)) raised.own
  refine ⟨atView_stopView s v cause device, by rw [stopView_frame], by rw [view]; rfl, by rw [view]; rfl, by rw [view]; rfl,
    by rw [view]; rfl, own.trans ended.own, fun a above next => ?_⟩
  have high : 0x801000 ≤ a := above.trans' (by decide)
  have unmarked : ∀ w ∈ markWrites (stopHeld s v cause device) v (stopMarkBytes cause device),
      ¬ InBytes a w.1 w.2.length := fun w hw inside => by
    unfold markWrites at hw
    rw [stopHeld_deltaFree, stopHeld_view] at hw
    rcases List.mem_append.1 hw with mark | status
    · split at mark
      next free =>
        rw [List.mem_singleton.1 mark, stopMarkBytes_length] at inside
        exact next free inside
      next => exact absurd mark List.not_mem_nil
    · rw [List.mem_singleton.1 status] at inside
      have := statusWrite_below v (markedView (stopHeld s v cause device) v)
      unfold InBytes at inside
      omega
  calc (stopView s v cause device).byteAt a
      = (stopRaised s v cause device).byteAt a := ended.bytes a high
    _ = _ := raised.bytes a high
    _ = (evaluateRoom (stopHeld s v cause device) v).byteAt a := wrote_byteAt unmarked
    _ = s.byteAt a := room.bytes a high

theorem beginFrame_keepsPublished (s : State) (v : Slot) : KeepsPublished s (beginFrame s v) v := by
  have view := atView_beginFrame s v
  rw [beginFrame_eq] at view ⊢
  exact ⟨view, rfl, by simp, by simp, by simp, by simp, HoldsMore.refl s, fun _ _ _ => rfl⟩

/-- A view that comes to wait AT_EDGE. -/
theorem waitAtEdge_keepsPublished (s : State) (v : Slot) :
    KeepsPublished s ((s.setView v { s.views[v] with atEdge := true }).writeViewStatus v) v := by
  rw [setView_writeViewStatus]
  refine ⟨(atView_setView s v _).trans (atView_wrote _ _ v), rfl, by simp, by simp, by simp, by simp, wrote_holdsMore _ _,
    fun a above _ => ?_⟩
  refine wrote_byteAt fun w hw inside => ?_
  rw [List.mem_singleton.1 hw] at inside
  have := statusWrite_below v { s.views[v] with atEdge := true }
  unfold InBytes at inside
  omega

theorem formFrame_keepsPublished (s : State) (v : Slot) : KeepsPublished s (formFrame s v) v := by
  unfold formFrame
  dsimp only
  split
  · exact KeepsPublished.refl s v
  · split
    · split
      · exact beginFrame_keepsPublished s v
      · exact stopView_keepsPublished s v _ _
    · split
      · exact beginFrame_keepsPublished s v
      · split
        · exact stopView_keepsPublished s v _ _
        · exact waitAtEdge_keepsPublished s v

/-! ### The publication (R127) -/

section
variable (s : State) (v : Slot) (f : Frame)

/-- The entries a published frame applies, in the order applied. -/
def publishedEntries : List Entry := frameEntries s s.views[v].ctx f.count

/-- The view's image after a frame. -/
def publishedImage : Image :=
  (publishedEntries s v f).foldl (applyEntry s.views[v].ctx.direction) s.dram.viewImages[v]

/-- The CHANGE records of a published frame. -/
def publishedRecords : List (List Byte) :=
  changeRecords s s.views[v].ctx (s.views[v].ctx.counter + 2).toNat (publishedEntries s v f)

/-- The view after a frame, before its stop tests. -/
def publishedView : View := { s.views[v] with
  state := .running, frame := none, atEdge := false, timer := none
  lastFrameTime := (publishedEntries s v f).getLast?.map Entry.time
  step := s.views[v].step.map fun x => { x with applied := x.applied + 1 }
  producer := s.views[v].producer + BitVec.ofNat 16 (publishedRecords s v f).length
  ctx := { s.views[v].ctx with
    cursor := cursorAfter s.views[v].ctx f.count
    cursorTime := cursorTimeAt s s.views[v].ctx (cursorAfter s.views[v].ctx f.count)
    budget := s.views[v].ctx.budget - 1
    counter := s.views[v].ctx.counter + 2 } }

/-- The writes of a publication. -/
def publishedWrites : List (Nat × List Byte) :=
  revisionWrites v s.views[v].ctx s.dram.viewImages[v] (publishedImage s v f) ((publishedEntries s v f).map Entry.device) ++
    recordWrites v s.views[v].producer.toNat (publishedRecords s v f) ++ [statusWrite v (publishedView s v f)]

/-- The state after a publication, before the stop tests. -/
def publishedState : State := State.wrote { s with
    views := s.views.set v (publishedView s v f)
    dram := { s.dram with viewImages := s.dram.viewImages.set v (publishedImage s v f) }
    arbiter := s.arbiter.submit (.view v) (requests (.view v) f.cls .frameWrite ((f.count + 63) / 64) false) }
  (publishedWrites s v f)

theorem publishedState_view : (publishedState s v f).views[v] = publishedView s v f := State.setView_get_self s v _

end

section
variable (s : State) (v : Slot) (f : Frame)

/-- A frame is published, and the first stop test that holds stops the view; where none holds the next frame is formed. -/
theorem applyFrame_eq : applyFrame s v f =
    (stopAfterFrame (publishedView s v f) (publishedEntries s v f)).elim (formFrame (publishedState s v f) v)
      (fun x => stopView (publishedState s v f) v x.1 x.2) := by
  have tests : ∀ (o : Option (StopCause × Nat)) (t : State), (match o with
      | some (cause, device) => stopView t v cause device
      | none => formFrame t v) = o.elim (formFrame t v) fun x => stopView t v x.1 x.2 := fun o t => by
    cases o <;> rfl
  unfold applyFrame
  dsimp only
  rw [reviseImage_eq, State.setView_get_self, setView_setView, foldl_writeDelta, wrote_views, State.setView_get_self,
    wrote_setView, setView_setView, wrote_wrote, writeViewStatus_eq, wrote_views, State.setView_get_self, wrote_wrote]
  refine (tests _ _).trans ?_
  rw [← publishedState_view]
  rfl

theorem publishedRecords_width : ∀ r ∈ publishedRecords s v f, r.length = 32 := fun r hr => by
  obtain ⟨x, -, rfl⟩ := List.mem_map.1 hr
  exact changeBytes_length ..

/-- What follows a publication, whatever the stop tests say. -/
theorem applyFrame_keepsPublished : KeepsPublished (publishedState s v f) (applyFrame s v f) v := by
  rw [applyFrame_eq]
  cases stopAfterFrame (publishedView s v f) (publishedEntries s v f) with
  | none => exact formFrame_keepsPublished _ v
  | some x => exact stopView_keepsPublished _ v x.1 x.2

theorem abovePorts_published : AbovePorts (publishedWrites s v f) :=
  ((abovePorts_revision _ _ _ _ _).append (abovePorts_records _ _ _)).append (abovePorts_status _ _)

end

section
variable {s : State} {v : Slot} {f : Frame}

/-- A delta ring that has room after a publication holds no full turn of its records. -/
theorem publishedRecords_length_lt (fits : (publishedRecords s v f).length ≤ deltaFree s v)
    (room : 1 ≤ deltaFree (publishedState s v f) v) : (publishedRecords s v f).length < 4096 := by
  have near := deltaDistance_of_free room
  rw [deltaFree_of_near near] at room
  have word : (publishedState s v f).indexAt (Config.deltaConsumerAddr s.views[v].ctx.owner v) =
      s.indexAt (Config.deltaConsumerAddr s.views[v].ctx.owner v) :=
    wrote_indexAt_deltaConsumer (abovePorts_published s v f) _ _ v
  have after : deltaDistance (publishedState s v f) v =
      (s.views[v].producer + BitVec.ofNat 16 (publishedRecords s v f).length - deltaConsumer s v).toNat := by
    unfold deltaDistance deltaConsumer Index.distance
    rw [publishedState_view]
    exact congrArg (fun x => BitVec.toNat (_ - x)) word
  have before : deltaDistance s v = (s.views[v].producer - deltaConsumer s v).toNat := rfl
  by_contra full
  have free : 1 ≤ deltaFree s v := by omega
  rw [deltaFree_of_near (deltaDistance_of_free free), before] at fits
  have : (publishedRecords s v f).length = 4096 := by omega
  rw [after, this] at room
  bv_omega

/-- The CHANGE records stand in the ring (R127). -/
theorem applyFrame_records (fits : (publishedRecords s v f).length ≤ deltaFree s v) (i : Nat)
    (h : i < (publishedRecords s v f).length) :
    Stands (applyFrame s v f) (Config.deltaEntry v ((s.views[v].producer.toNat + i) % 65536 % 4096))
      (publishedRecords s v f)[i] := by
  have small : (publishedRecords s v f).length ≤ 4096 := by
    have := deltaDistance_of_free (show 1 ≤ deltaFree s v by omega)
    rw [deltaFree_of_near this] at fits
    omega
  have width : (publishedRecords s v f)[i].length = 32 := publishedRecords_width s v f _ (List.getElem_mem h)
  have stands : Stands (publishedState s v f) (Config.deltaEntry v ((s.views[v].producer.toNat + i) % 65536 % 4096))
      (publishedRecords s v f)[i] :=
    recordWrites_stands _ _ v s.views[v].producer.toNat (publishedRecords_width s v f) small
      (fun w hw => List.mem_singleton.1 hw ▸ statusWrite_below v _) i h
  refine stands_of_byteAt _ _ _ _ (fun x hx => ?_) stands
  rw [width] at hx
  have low := deltaEntry_bounds v ((s.views[v].producer.toNat + i) % 65536)
  refine (applyFrame_keepsPublished s v f).bytes x (low.1.trans hx.1) fun room => ?_
  have lt := publishedRecords_length_lt fits room
  have next : (publishedState s v f).views[v].producer.toNat =
      (s.views[v].producer.toNat + (publishedRecords s v f).length) % 65536 := by
    rw [publishedState_view]
    simp [publishedView]
  rw [next]
  exact deltaEntry_apart v _ h (by omega) hx

/-- A device that no entry of the frame names keeps its image byte. -/
theorem publishedImage_unnamed (d : Nat) (unnamed : d ∉ (publishedEntries s v f).map Entry.device) :
    (publishedImage s v f).at d = s.dram.viewImages[v].at d := foldl_applyEntry_at _ _ _ unnamed

/-- A published image that stands in its area stands there after the frame (R91). -/
theorem applyFrame_shows (published : s.views[v].ctx.published = true)
    (shown : ∀ d < 32768, s.byteAt (Config.imageAddr v + d) = (s.dram.viewImages[v].at d).encode) :
    ∀ d < 32768, (applyFrame s v f).byteAt (Config.imageAddr v + d) = ((publishedImage s v f).at d).encode := by
  intro d hd
  have above := imageAddr_bounds v
  have apart : ∀ i, ¬ InBytes (Config.imageAddr v + d) (Config.deltaEntry v (i % 4096)) 32 := fun i => by
    have := deltaEntry_bounds v i
    unfold InBytes
    omega
  rw [(applyFrame_keepsPublished s v f).bytes _ (by omega) fun _ => apart _]
  unfold publishedState publishedWrites
  rw [List.append_assoc, ← wrote_wrote, wrote_below_image]
  · exact revision_shows (s := { s with
      views := _, dram := { s.dram with viewImages := _ }, arbiter := _ }) published publishedImage_unnamed shown d hd
  · intro w hw
    rcases List.mem_append.1 hw with record | status
    · obtain ⟨x, hx, rfl⟩ := List.mem_map.1 record
      have := publishedRecords_width s v f _ (List.fst_mem_of_mem_zipIdx hx)
      have := deltaEntry_bounds v ((s.views[v].producer.toNat + x.2) % 65536)
      dsimp only
      omega
    · rw [List.mem_singleton.1 status]
      exact (statusWrite_below v _).trans (by decide)

/-- The packets of a publication, before all that follows (R127). -/
theorem applyFrame_own (up : s.ring.up = true) : ∃ more,
    (applyFrame s v f).ring.own = s.ring.own ++ writesOf s.ring.node (publishedWrites s v f) ++ more := by
  obtain ⟨more, own⟩ := (applyFrame_keepsPublished s v f).own
  exact ⟨more, own.trans (congrArg (· ++ more) (wrote_own up _))⟩

end

/-! ### The stop tests (R117) -/

/-- The first test that holds: a watched device, an ambiguous entry, the last frame of a STEP. -/
theorem stopAfterFrame_eq (w : View) (es : List Entry) : stopAfterFrame w es =
    (es.find? fun e => decide (e.device ∈ w.ctx.watch) && !e.isRepeat).elim
      (if w.ctx.stopAmbiguous = true ∧ ∃ e ∈ es, e.ambiguous = true then some (.ambiguous, 0)
      else if w.step ≠ none ∧ w.ctx.budget = 0 then some (.stepDone, 0) else none)
      fun e => some (.watch, e.device) := by
  have tests : (fun e : Entry => decide (e.device ∈ w.ctx.watch) && !e.isRepeat) =
      fun e => w.ctx.watch.contains e.device && !e.isRepeat := by
    funext e
    rw [List.contains_eq_mem]
  unfold stopAfterFrame
  rw [tests]
  cases es.find? fun e => w.ctx.watch.contains e.device && !e.isRepeat with
  | some e => rfl
  | none => simp [Option.isSome_iff_ne_none]

section
variable (s : State) (v : Slot) (f : Frame)

/-- The first watched entry of a frame that is no repeat. -/
def publishedWatched : Option Entry :=
  (publishedEntries s v f).find? fun e => decide (e.device ∈ s.views[v].ctx.watch) && !e.isRepeat

/-- What follows a publication, by the stop tests in their order (R117). -/
theorem applyFrame_tests : applyFrame s v f = (publishedWatched s v f).elim
    (if s.views[v].ctx.stopAmbiguous = true ∧ ∃ e ∈ publishedEntries s v f, e.ambiguous = true then
      stopView (publishedState s v f) v .ambiguous 0
    else if s.views[v].step ≠ none ∧ s.views[v].ctx.budget ≤ 1 then stopView (publishedState s v f) v .stepDone 0
    else formFrame (publishedState s v f) v)
    fun e => stopView (publishedState s v f) v .watch e.device := by
  have ambiguous : (publishedView s v f).ctx.stopAmbiguous = s.views[v].ctx.stopAmbiguous := rfl
  have done : (publishedView s v f).step ≠ none ∧ (publishedView s v f).ctx.budget = 0 ↔
      s.views[v].step ≠ none ∧ s.views[v].ctx.budget ≤ 1 := by
    simp [publishedView, Nat.sub_eq_zero_iff_le]
  rw [applyFrame_eq, stopAfterFrame_eq]
  change Option.elim (Option.elim (publishedWatched s v f) _ _) _ _ = _
  cases publishedWatched s v f with
  | some e => rfl
  | none =>
    simp only [Option.elim_none, ambiguous, done]
    by_cases yes : s.views[v].ctx.stopAmbiguous = true ∧ ∃ e ∈ publishedEntries s v f, e.ambiguous = true
    · rw [if_pos yes, if_pos yes, Option.elim_some]
    · rw [if_neg yes, if_neg yes]
      by_cases last : s.views[v].step ≠ none ∧ s.views[v].ctx.budget ≤ 1
      · rw [if_pos last, if_pos last, Option.elim_some]
      · rw [if_neg last, if_neg last, Option.elim_none]

end

/-- A stopped view is HELD, with the stop's cause. -/
theorem stopView_held {s t : State} {v : Slot} {cause : StopCause} {device : Nat} (h : t = stopView s v cause device) :
    t.views[v].state = .held ∧ t.views[v].ctx.lastStop = cause := by
  rw [h, stopView_view_eq]
  exact ⟨rfl, rfl⟩

section
variable {s : State} {v : Slot} {f : Frame}

theorem publishedWatched_eq_none : publishedWatched s v f = none ↔
    ∀ e ∈ publishedEntries s v f, e.device ∈ s.views[v].ctx.watch → e.isRepeat = true := by
  simp [publishedWatched, List.find?_eq_none]

end

section
variable {s : State} {v : Slot} {f : Frame}

theorem applyFrame_watch {e : Entry} (found : publishedWatched s v f = some e) :
    applyFrame s v f = stopView (publishedState s v f) v .watch e.device := by
  rw [applyFrame_tests, found, Option.elim_some]

theorem applyFrame_ambiguous (unwatched : publishedWatched s v f = none)
    (ambiguous : s.views[v].ctx.stopAmbiguous = true ∧ ∃ e ∈ publishedEntries s v f, e.ambiguous = true) :
    applyFrame s v f = stopView (publishedState s v f) v .ambiguous 0 := by
  rw [applyFrame_tests, unwatched, Option.elim_none, if_pos ambiguous]

theorem applyFrame_stepDone (unwatched : publishedWatched s v f = none)
    (plain : ¬ (s.views[v].ctx.stopAmbiguous = true ∧ ∃ e ∈ publishedEntries s v f, e.ambiguous = true))
    (last : s.views[v].step ≠ none ∧ s.views[v].ctx.budget ≤ 1) :
    applyFrame s v f = stopView (publishedState s v f) v .stepDone 0 := by
  rw [applyFrame_tests, unwatched, Option.elim_none, if_neg plain, if_pos last]

theorem applyFrame_goes_on (unwatched : publishedWatched s v f = none)
    (plain : ¬ (s.views[v].ctx.stopAmbiguous = true ∧ ∃ e ∈ publishedEntries s v f, e.ambiguous = true))
    (further : ¬ (s.views[v].step ≠ none ∧ s.views[v].ctx.budget ≤ 1)) :
    applyFrame s v f = formFrame (publishedState s v f) v := by
  rw [applyFrame_tests, unwatched, Option.elim_none, if_neg plain, if_neg further]

end

/-! ### The obligation -/

/-- Settles O44: every frame ends as its publication's writes, its stop tests and what follows them say. -/
theorem frameApplied : Obligations.FrameApplied := by
  unfold Obligations.FrameApplied
  intro s v f
  extract_lets c es image records t
  intro fits
  have kept : KeepsPublished (publishedState s v f) t v := applyFrame_keepsPublished s v f
  have after := publishedState_view s v f
  have view : AtView s t v := atView_applyFrame s v f
  have cursor : t.views[v].ctx.cursor = cursorAfter c f.count := by rw [kept.cursor, after]; rfl
  have time : t.views[v].ctx.cursorTime = cursorTimeAt s c t.views[v].ctx.cursor := by
    rw [kept.cursorTime, after, cursor]
    rfl
  have same : publishedView s v f = { s.views[v] with
      state := .running, frame := none, atEdge := false, timer := none, lastFrameTime := es.getLast?.map Entry.time
      step := s.views[v].step.map fun x => { x with applied := x.applied + 1 }
      producer := s.views[v].producer + BitVec.ofNat 16 records.length
      ctx := { c with
        cursor := t.views[v].ctx.cursor, cursorTime := t.views[v].ctx.cursorTime
        budget := c.budget - 1, counter := c.counter + 2 } } := by
    rw [time, cursor]
    rfl
  refine ⟨kept.dram, ?_, time, by rw [kept.counter, after]; rfl, applyFrame_records fits, applyFrame_shows,
    by rw [kept.lastFrameTime, after]; rfl, ?_, view.2.1, ?_, ?_, ?_, ?_, ?_⟩
  · rw [cursor]
    unfold cursorAfter
    cases c.direction <;> rfl
  · intro up
    obtain ⟨more, own⟩ := applyFrame_own (v := v) (f := f) up
    refine ⟨changedWords s.dram.viewImages[v] image (es.map Entry.device), more, changedWords_sorted _ _ _,
      fun i => mem_changedWords publishedImage_unnamed i, own.trans ?_⟩
    unfold publishedWrites
    rw [same]
    rfl
  · rw [view.1]
    exact ⟨rfl, rfl, rfl, rfl, rfl, rfl, rfl, rfl, rfl, rfl, rfl⟩
  · refine ⟨publishedState s v f, ?_, by rw [after]; exact wrote_status_stands _ _ v _, ?_⟩
    · rw [← same]
      rfl
    · exact ⟨fun e => applyFrame_watch, applyFrame_ambiguous, applyFrame_stepDone, applyFrame_goes_on⟩
  · rintro ⟨e, he, watched, fresh⟩
    cases found : publishedWatched s v f with
    | none => exact absurd (publishedWatched_eq_none.1 found e he watched) (by simp [fresh])
    | some x => exact stopView_held (applyFrame_watch found)
  · intro repeats yes ambiguous
    exact stopView_held (applyFrame_ambiguous (publishedWatched_eq_none.2 repeats) ⟨yes, ambiguous⟩)
  · intro repeats plain step budget
    have unambiguous : ¬ (s.views[v].ctx.stopAmbiguous = true ∧ ∃ e ∈ publishedEntries s v f, e.ambiguous = true) :=
      fun ⟨yes, e, he, ambiguous⟩ => by simp [plain yes e he] at ambiguous
    exact stopView_held (applyFrame_stepDone (publishedWatched_eq_none.2 repeats) unambiguous ⟨step, budget.le⟩)

end Sys2Proof.Machine
end

section
/-! PROOFS. The end of a seek: the carries made before the view is HELD, its last image write, the SEEK_MARK and the
command's completion (R79, R80, R87, R124, R132). -/

namespace Sys2Proof.Machine

/-- A rise of a counter by parts. -/
theorem counter_rise (c : BitVec 32) (m n : Nat) : c + BitVec.ofNat 32 m + BitVec.ofNat 32 n = c + BitVec.ofNat 32 (m + n) := by
  rw [BitVec.add_assoc, ← BitVec.ofNat_add]

theorem entriesBetween_empty (s : State) (a : Nat) : entriesBetween s a a = [] := by
  rw [entriesBetween, List.drop_eq_nil_iff, List.length_take]
  exact Nat.min_le_left _ _

/-- A stretch of held entries lengthened by one. -/
theorem entriesBetween_succ {s : State} {a b : Nat} (order : a ≤ b) (held : b < s.dram.journal.length) :
    entriesBetween s a (b + 1) = entriesBetween s a b ++ [entryAt s b] := by
  unfold entriesBetween entryAt
  rw [List.take_succ, List.getElem?_eq_getElem held, Option.toList_some, List.drop_append_of_le_length,
    List.getD_eq_getElem _ _ held]
  rw [List.length_take]
  omega

/-- A mark and the status record behind it lie below the image areas. -/
theorem markWrites_below_image {s : State} {v : Slot} {bs : List Byte} (len : bs.length = 32) :
    ∀ w ∈ markWrites s v bs, w.1 + w.2.length ≤ 0xA00000 := by
  intro w hw
  unfold markWrites at hw
  rcases List.mem_append.1 hw with mark | status
  · split at mark
    next =>
      have := deltaEntry_bounds v s.views[v].producer.toNat
      rw [List.mem_singleton.1 mark, len]
      omega
    next => exact absurd mark List.not_mem_nil
  · rw [List.mem_singleton.1 status]
    exact (statusWrite_below v _).trans (by decide)

/-! ### The carries before a view is HELD (R79) -/

section
variable (s : State) (v : Slot) (k : SeekOp)

/-- The image of the view after `i` carries. -/
def seekImage (i : Nat) : Image :=
  (rollImage s s.dram.viewImages[v] k.start k.target).rollForward (entriesBetween s k.target (k.target + i))

/-- The view after `i` carries. -/
def seekView (i : Nat) : View := { s.views[v] with ctx := { s.views[v].ctx with
  cursor := k.target + i
  cursorTime := if i = 0 then cursorTimeAt s s.views[v].ctx k.target else s.views[v].ctx.windowStart
  width := k.newWidth.getD s.views[v].ctx.width
  counter := s.views[v].ctx.counter + BitVec.ofNat 32 (2 * i) } }

/-- The writes of the carry after `i` others. -/
def seekCarry (i : Nat) : List (Nat × List Byte) :=
  carryWrites v (seekView s v k i) (seekImage s v k i) (entryAt s (k.target + i))

/-- The channel and the queues after `n` carries. -/
def seekArbiter (n : Nat) : Arbiter := (List.range n).foldl
  (fun a _ => a.submit (.view v) [⟨.view v, .b, .carry, false⟩, ⟨.view v, .b, .carry, false⟩])
  (if channelEnds s (.view v) .seekRoll then s.arbiter.finish else s.arbiter)

/-- The state after `n` carries. -/
def seekCarried (n : Nat) : State := State.wrote { s with
    views := s.views.set v (seekView s v k n)
    dram := { s.dram with viewImages := s.dram.viewImages.set v (seekImage s v k n) }
    arbiter := seekArbiter s v n }
  ((List.range n).flatMap (seekCarry s v k))

theorem seekView_carried (i : Nat) : (seekView s v k i).carried = seekView s v k (i + 1) := by
  unfold seekView View.carried
  dsimp only
  rw [if_neg i.succ_ne_zero, Nat.mul_succ, ← counter_rise]
  rfl

variable {s k} in
theorem seekImage_succ {i : Nat} (held : k.target + i < s.dram.journal.length) :
    seekImage s v k (i + 1) = (seekImage s v k i).applyForward (entryAt s (k.target + i)) := by
  unfold seekImage
  rw [← Nat.add_assoc, entriesBetween_succ (Nat.le_add_right _ _) held, rollForward_concat]

variable {s k} in
theorem carryView_seekCarried {n : Nat} (held : k.target + n < s.dram.journal.length) :
    carryView (seekCarried s v k n) v = seekCarried s v k (n + 1) := by
  have view : (seekCarried s v k n).views[v] = seekView s v k n := State.setView_get_self s v _
  have image : (seekCarried s v k n).dram.viewImages[v] = seekImage s v k n := by simp [seekCarried]
  have entry : entryAt (seekCarried s v k n) (seekView s v k n).ctx.cursor = entryAt s (k.target + n) := rfl
  rw [carryView_eq, view, image, entry, ← seekImage_succ v held, seekView_carried]
  unfold seekCarried seekArbiter
  rw [List.range_succ, List.flatMap_append, List.flatMap_singleton, List.foldl_append, ← wrote_wrote]
  simp only [wrote_views, wrote_dram, Vector.set_set]
  rfl

/-- The number of carries that a seek's end makes. -/
def seekCarries : Nat := windowBase s s.views[v].ctx - k.target

variable {s k} in
theorem foldl_carryView {n : Nat} (held : ∀ i < n, k.target + i < s.dram.journal.length) :
    (List.range n).foldl (fun t _ => carryView t v) (seekCarried s v k 0) = seekCarried s v k n := by
  induction n with
  | zero => rfl
  | succ n ih =>
    rw [List.range_succ, List.foldl_append, ih fun i hi => held i (by omega)]
    exact carryView_seekCarried v (held n n.lt_succ_self)

/-- The base lies within the journal, so every entry carried over is held. -/
theorem seekCarries_held : ∀ i < seekCarries s v k, k.target + i < s.dram.journal.length := by
  have := (countBelow_le s s.views[v].ctx.windowStart).2
  unfold seekCarries windowBase
  omega

/-- The view HELD at the end of its seek, before its SEEK_MARK. -/
def seekHeldView : View := { (seekView s v k (seekCarries s v k)).counted 2 with state := .held, seek := none }

/-- The whole-image write of a published view at the end of its seek (R132). -/
def seekShows : List (Nat × List Byte) :=
  if s.views[v].ctx.published then
    wholeImageWrites v (seekView s v k (seekCarries s v k)).ctx (seekImage s v k (seekCarries s v k))
  else []

/-- The state with view `w` at the end of its seek and the image written. -/
def seekShown (w : View) : State := State.wrote { s with
    views := s.views.set v w
    dram := { s.dram with viewImages := s.dram.viewImages.set v (seekImage s v k (seekCarries s v k)) }
    arbiter := seekArbiter s v (seekCarries s v k) }
  ((List.range (seekCarries s v k)).flatMap (seekCarry s v k) ++ seekShows s v k)

theorem seekShown_view (w : View) : (seekShown s v k w).views[v] = w := State.setView_get_self s v w

theorem setView_seekShown (w x : View) : (seekShown s v k w).setView v x = seekShown s v k x := by
  unfold seekShown
  rw [wrote_setView]
  simp only [State.setView, Vector.set_set]

/-- The whole-image write, or the counter's rise alone. -/
theorem seekCarried_shows {t : State} (carried : t = seekCarried s v k (seekCarries s v k)) :
    (if t.views[v].ctx.published then writeWholeImage t v else t.setView v (t.views[v].counted 2)) =
      seekShown s v k ((seekView s v k (seekCarries s v k)).counted 2) := by
  have view : t.views[v] = seekView s v k (seekCarries s v k) := carried ▸ State.setView_get_self s v _
  have image : t.dram.viewImages[v] = seekImage s v k (seekCarries s v k) := by simp [carried, seekCarried]
  have counted : ∀ w, t.setView v w = State.wrote { s with
      views := s.views.set v w
      dram := { s.dram with viewImages := s.dram.viewImages.set v (seekImage s v k (seekCarries s v k)) }
      arbiter := seekArbiter s v (seekCarries s v k) }
      ((List.range (seekCarries s v k)).flatMap (seekCarry s v k)) := fun w => by
    rw [carried, seekCarried, wrote_setView]
    simp only [State.setView, Vector.set_set]
  have published : (seekView s v k (seekCarries s v k)).ctx.published = s.views[v].ctx.published := rfl
  unfold seekShown seekShows
  rw [← wrote_wrote, ← counted, view, published]
  split
  · rw [writeWholeImage_eq, view, image]
  · rw [wrote_nil]

theorem seekCarried_zero : seekCarried s v k 0 = State.setView
    (State.setViewImage { s with arbiter := seekArbiter s v 0 } v (rollImage s s.dram.viewImages[v] k.start k.target)) v
    { s.views[v] with ctx := { s.views[v].ctx with
      cursor := k.target, cursorTime := cursorTimeAt s s.views[v].ctx k.target
      width := k.newWidth.getD s.views[v].ctx.width } } := by
  have image : seekImage s v k 0 = rollImage s s.dram.viewImages[v] k.start k.target := by
    rw [seekImage, Nat.add_zero, entriesBetween_empty]
    rfl
  have view : seekView s v k 0 = { s.views[v] with ctx := { s.views[v].ctx with
      cursor := k.target, cursorTime := cursorTimeAt s s.views[v].ctx k.target
      width := k.newWidth.getD s.views[v].ctx.width } } := by
    simp [seekView]
  rw [seekCarried, image, view, List.range_zero, List.flatMap_nil, wrote_nil]
  rfl

/-- The state with the view HELD at the end of its seek, before its SEEK_MARK. -/
def seekHeld : State := seekShown s v k (seekHeldView s v k)

/-- The SEEK_MARK at the end of a seek. -/
def seekMark : List Byte := seekMarkBytes (seekHeldView s v k).ctx.cursor (seekHeldView s v k).ctx.cursorTime

/-- A seek's end is its carries, its image write, the view HELD, and the SEEK_MARK with the status record. -/
theorem finishSeek_eq : finishSeek s v k =
    ((evaluateRoom (seekHeld s v k) v).setView v (markedView (seekHeld s v k) v)).wrote
      (markWrites (seekHeld s v k) v (seekMark s v k)) := by
  have start : (if channelEnds s (.view v) .seekRoll then s.finishTransfer else s) =
      { s with arbiter := seekArbiter s v 0 } := by
    unfold seekArbiter
    split <;> rfl
  unfold finishSeek
  rw [start]
  extract_lets s1 s2 w2 c2 s3 s4 w4 c4 s5 w5 s6
  have carried : s4 = seekCarried s v k (seekCarries s v k) := by
    change List.foldl _ s3 (List.range (seekCarries s v k)) = _
    rw [show s3 = seekCarried s v k 0 from (seekCarried_zero s v k).symm]
    exact foldl_carryView v (seekCarries_held s v k)
  have shown : s5 = _ := seekCarried_shows s v k carried
  have held : s6 = seekHeld s v k := by
    change s5.setView v { s5.views[v] with state := .held, seek := none } = _
    rw [shown, seekShown_view, setView_seekShown]
    rfl
  rw [held, seekHeld, seekShown_view]
  exact writeMark_writeViewStatus _ _ _

/-! ### What a seek's end leaves -/

theorem seekHeld_view : (seekHeld s v k).views[v] = seekHeldView s v k := seekShown_view s v k _

theorem abovePorts_seek : AbovePorts ((List.range (seekCarries s v k)).flatMap (seekCarry s v k) ++ seekShows s v k) := by
  refine AbovePorts.append (fun w hw => ?_) ?_
  · obtain ⟨i, -, hi⟩ := List.mem_flatMap.1 hw
    exact abovePorts_carry _ _ _ _ w hi
  · unfold seekShows
    split
    · exact abovePorts_wholeImage _ _ _
    · exact abovePorts_nil

/-- The carries and the image write leave the delta ring's free space. -/
theorem seekHeld_deltaDistance : deltaDistance (seekHeld s v k) v = deltaDistance s v := by
  refine deltaDistance_congr ?_ ?_ (wrote_indexAt_deltaConsumer (abovePorts_seek s v k) _ _ v)
  all_goals
    rw [seekHeld_view]
    rfl

theorem seekHeld_deltaFree : deltaFree (seekHeld s v k) v = deltaFree s v := deltaFree_congr (seekHeld_deltaDistance s v k)

theorem seekHeld_producer : (seekHeld s v k).views[v].producer = s.views[v].producer := by
  rw [seekHeld_view]
  rfl

theorem finishSeek_view : (finishSeek s v k).views[v] = markedView (seekHeld s v k) v := by
  rw [finishSeek_eq, wrote_views, State.setView_get_self]

theorem finishSeek_view_ne {x : Slot} (other : x ≠ v) : (finishSeek s v k).views[x] = s.views[x] := by
  rw [finishSeek_eq, wrote_views, State.setView_get, if_neg other, (atPorts_evaluateRoom (seekHeld s v k) v).views]
  exact (State.setView_get s v x _).trans (if_neg other)

theorem finishSeek_ctx : (finishSeek s v k).views[v].ctx = (seekHeldView s v k).ctx := by
  rw [finishSeek_view, markedView_ctx, seekHeld_view]

/-- What a SEEK_MARK leaves of the view HELD. -/
theorem finishSeek_view_eq : (finishSeek s v k).views[v] = { seekHeldView s v k with
    producer := (finishSeek s v k).views[v].producer, lostMarks := (finishSeek s v k).views[v].lostMarks } := by
  have marked := markedView_eq (seekHeld s v k) v
  rwa [seekHeld_view, ← finishSeek_view] at marked

theorem finishSeek_inFlight (q : PortId) : (finishSeek s v k).ports[q].inFlight = s.ports[q].inFlight := by
  rw [finishSeek_eq, wrote_ports]
  exact evaluateRoom_inFlight (seekHeld s v k) v q

/-- What a seek's end leaves of the rest of the part. -/
theorem finishSeek_frame : finishSeek s v k = { s with
    ring := { s.ring with replica := (finishSeek s v k).ring.replica, own := (finishSeek s v k).ring.own }
    ports := (finishSeek s v k).ports
    views := (finishSeek s v k).views
    dram := { s.dram with viewImages := s.dram.viewImages.set v (seekImage s v k (seekCarries s v k)) }
    arbiter := seekArbiter s v (seekCarries s v k) } := by
  rw [finishSeek_eq, (atPorts_evaluateRoom (seekHeld s v k) v).frame]
  simp [State.setView, State.wrote, seekHeld, seekShown]

variable {s} in
/-- Where the delta ring's distance is in range, a seek's end is its writes, in order. -/
theorem finishSeek_of_near (near : deltaDistance s v ≤ 4096) : finishSeek s v k = State.wrote { s with
    views := s.views.set v (markedView (seekHeld s v k) v)
    dram := { s.dram with viewImages := s.dram.viewImages.set v (seekImage s v k (seekCarries s v k)) }
    arbiter := seekArbiter s v (seekCarries s v k) }
    ((List.range (seekCarries s v k)).flatMap (seekCarry s v k) ++ seekShows s v k ++
      markWrites (seekHeld s v k) v (seekMark s v k)) := by
  rw [finishSeek_eq, evaluateRoom_of_near (by rwa [seekHeld_deltaDistance]), seekHeld, setView_seekShown, seekShown, wrote_wrote]

theorem finishSeek_stands_status :
    Stands (finishSeek s v k) (Config.viewStatusAddr v) (viewStatusBytes (finishSeek s v k).views[v]) := by
  rw [finishSeek_view, finishSeek_eq]
  exact wrote_status_stands _ _ v _

variable {s} in
theorem finishSeek_stands_mark (room : 1 ≤ deltaFree s v) :
    Stands (finishSeek s v k) (Config.deltaEntry v (s.views[v].producer.toNat % 4096)) (seekMark s v k) := by
  rw [finishSeek_eq, ← seekHeld_producer s v k]
  exact wrote_mark_stands (by rwa [seekHeld_deltaFree]) (seekMarkBytes_length _ _) _

variable {s} in
/-- Where the delta ring has room, the packets of a seek's end are its carries, its image write, the SEEK_MARK and the
status record. -/
theorem finishSeek_own (up : s.ring.up = true) (room : 1 ≤ deltaFree s v) : (finishSeek s v k).ring.own =
    s.ring.own ++ writesOf s.ring.node ((List.range (seekCarries s v k)).flatMap (seekCarry s v k) ++ seekShows s v k ++
      [(Config.deltaEntry v (s.views[v].producer.toNat % 4096), seekMark s v k),
        statusWrite v (finishSeek s v k).views[v]]) := by
  have own := congrArg (fun t => t.ring.own) (finishSeek_of_near v k (deltaDistance_of_free room))
  rw [markWrites_of_room (by rwa [seekHeld_deltaFree]), seekHeld_producer, ← finishSeek_view] at own
  exact own.trans (wrote_own up _)

variable {s} in
/-- A published view's image stands in its area at the end of its seek. -/
theorem finishSeek_stands_image (published : s.views[v].ctx.published = true) :
    Stands (finishSeek s v k) (Config.imageAddr v) (imageBytes (seekImage s v k (seekCarries s v k)) 0 32768) := by
  have image := imageAddr_bounds v
  have status := viewStatusAddr_bounds v
  have held : Stands (seekHeld s v k) (Config.imageAddr v) (imageBytes (seekImage s v k (seekCarries s v k)) 0 32768) := by
    unfold seekHeld seekShown seekShows
    rw [if_pos published, wholeImageWrites, ← List.singleton_append, ← List.append_assoc]
    refine wrote_stands _ fun w hw x hx inside => ?_
    rw [List.mem_singleton.1 hw] at inside
    have := counterWrite_below_image v ((seekView s v k (seekCarries s v k)).ctx.counter + 2) _ (List.mem_singleton_self _)
    unfold InBytes at *
    omega
  rw [finishSeek_eq]
  refine stands_of_byteAt _ _ _ _ (fun x hx => wrote_byteAt fun w hw inside => ?_)
    ((atPorts_evaluateRoom (seekHeld s v k) v).stands (by omega) held)
  have := markWrites_below_image (s := seekHeld s v k) (v := v) (seekMarkBytes_length _ _) w hw
  unfold InBytes at *
  omega

/-- The cursor time at the end of a seek (R80). -/
theorem seekHeldView_time : (seekHeldView s v k).ctx.cursorTime =
    cursorTimeAt s s.views[v].ctx (k.target + seekCarries s v k) := by
  change (if seekCarries s v k = 0 then cursorTimeAt s s.views[v].ctx k.target else s.views[v].ctx.windowStart) = _
  split
  next zero => rw [zero, Nat.add_zero]
  next positive =>
    have base : k.target + seekCarries s v k ≤ windowBase s s.views[v].ctx := by
      unfold seekCarries at *
      omega
    exact (if_pos base).symm

/-- The view HELD at the end of a seek, field by field. -/
theorem seekHeldView_eq : seekHeldView s v k = { s.views[v] with
    state := .held, seek := none
    ctx := { s.views[v].ctx with
      cursor := k.target + seekCarries s v k
      cursorTime := cursorTimeAt s s.views[v].ctx (k.target + seekCarries s v k)
      width := k.newWidth.getD s.views[v].ctx.width
      counter := s.views[v].ctx.counter + BitVec.ofNat 32 (2 * seekCarries s v k + 2) } } := by
  rw [← seekHeldView_time, ← counter_rise]
  rfl

theorem seekMark_eq : seekMark s v k = seekMarkBytes (k.target + seekCarries s v k)
    (cursorTimeAt s s.views[v].ctx (k.target + seekCarries s v k)) := by
  rw [← seekHeldView_time]
  rfl

/-- The changed words of a carry. -/
def seekWords (i : Nat) : List Nat :=
  changedWords (seekImage s v k i) (seekImage s v k (i + 1)) [(entryAt s (k.target + i)).device]

variable {s k} in
theorem mem_seekWords {i : Nat} (held : k.target + i < s.dram.journal.length) (j : Nat) : j ∈ seekWords s v k i ↔
    imageBytes (seekImage s v k i) (8 * j) 8 ≠ imageBytes (seekImage s v k (i + 1)) (8 * j) 8 := by
  refine mem_changedWords (fun d other => ?_) j
  rw [seekImage_succ v held]
  exact (Image.at_put _ _ _ _).trans (if_neg (by simpa using other))

variable {s k} in
/-- The last writes of a published view's image, in order. -/
theorem seekShows_eq : seekShows s v k = if s.views[v].ctx.published then
    [counterWrite v (s.views[v].ctx.counter + BitVec.ofNat 32 (2 * seekCarries s v k + 1)),
      (Config.imageAddr v, imageBytes (seekImage s v k (seekCarries s v k)) 0 32768),
      counterWrite v (s.views[v].ctx.counter + BitVec.ofNat 32 (2 * seekCarries s v k + 2))]
    else [] := by
  rw [← counter_rise, ← counter_rise]
  rfl

variable {s k} in
/-- The writes of a carry, in order. -/
theorem seekCarry_eq {i : Nat} (held : k.target + i < s.dram.journal.length) : seekCarry s v k i =
    (if s.views[v].ctx.published then
      [counterWrite v (s.views[v].ctx.counter + BitVec.ofNat 32 (2 * i + 1))] ++
        (seekWords s v k i).map (fun j => (Config.imageAddr v + 8 * j, imageBytes (seekImage s v k (i + 1)) (8 * j) 8)) ++
        [counterWrite v (s.views[v].ctx.counter + BitVec.ofNat 32 (2 * i + 2))]
    else []) ++ [statusWrite v (seekView s v k (i + 1))] := by
  rw [seekCarry, carryWrites, seekView_carried, ← seekImage_succ v held, ← counter_rise, ← counter_rise]
  rfl

theorem windowLimit_congr {s t : State} {c d : ViewContext} (journal : t.journal = s.journal)
    (held : t.dram.journal = s.dram.journal) (ends : d.windowEnd = c.windowEnd) : windowLimit t d = windowLimit s c := by
  unfold windowLimit countUpTo committedEntries
  rw [journal, held, ends]

/-- The detail values of a seek's completion (R84, R87, R99). -/
theorem finishSeek_details : seekDetails (finishSeek s v k) v k =
    (if k.kind = .openView then v.val else k.target + seekCarries s v k,
      if k.kind = .openView then k.target + seekCarries s v k
        else if k.kind = .resume then v.val else if k.loads then 1 else 0,
      if k.kind = .openView then windowLimit s s.views[v].ctx else timeDistance k.start k.target) := by
  have limit : windowLimit (finishSeek s v k) (seekHeldView s v k).ctx = windowLimit s s.views[v].ctx :=
    windowLimit_congr (by rw [finishSeek_frame]) (by rw [finishSeek_frame]) rfl
  unfold seekDetails
  rw [finishSeek_ctx]
  dsimp only
  rw [limit]
  cases k.kind <;> rfl

end

theorem exec_seekEnd {s : State} {v : Slot} {k : SeekOp} (seek : s.views[v].seek = some k) (reached : seekReached s v = true) :
    exec (.seekEnd v) s = .next (checkTruncate (completeSeek (finishSeek s v k) v k)) := by
  change execSeekEnd v s = _
  unfold execSeekEnd
  rw [seek]
  exact congrArg Host.Outcome.next (if_pos reached)

/-- Settles O33: every seek's end is its carries, its last writes and its command's completion. -/
theorem seekEndsHeld : Obligations.SeekEndsHeld := by
  unfold Obligations.SeekEndsHeld
  intro s v k seek reached w base carries cursor image time context
  have done := exec_seekEnd seek reached
  have free := seekHeld_deltaFree s v k
  refine ⟨finishSeek s v k, ?_, fun near => ?_, ?_, fun x other => ?_, finishSeek_stands_status s v k,
    finishSeek_stands_image v k, fun room => ?_, fun full => ?_, fun up room => ?_, fun unnumbered => ?_,
    fun n p c numbered found => ?_⟩
  case refine_1 => exact finishSeek_frame s v k
  case refine_2 => rw [finishSeek_of_near v k near, wrote_ports]
  case refine_3 =>
    refine (finishSeek_view_eq s v k).trans ?_
    rw [seekHeldView_eq]
    rfl
  case refine_4 => exact finishSeek_view_ne s v k other
  case refine_5 =>
    rw [finishSeek_view, markedView_of_room (free.symm ▸ room), seekHeld_view]
    exact ⟨rfl, rfl, seekMark_eq s v k ▸ finishSeek_stands_mark v k room⟩
  case refine_6 =>
    rw [finishSeek_view, markedView_of_full (free.trans full), seekHeld_view]
    exact ⟨rfl, rfl⟩
  case refine_7 =>
    have held := seekCarries_held s v k
    refine ⟨seekWords s v k, fun i hi => ⟨changedWords_sorted _ _ _, mem_seekWords v (held i hi)⟩, ?_⟩
    have carried := List.flatMap_congr fun i hi => seekCarry_eq v (held i (List.mem_range.1 hi))
    rw [finishSeek_own v k up room, seekMark_eq, seekShows_eq, carried]
    rfl
  case refine_8 =>
    rw [done, completeSeek, unnumbered]
  case refine_9 =>
    have found' := (findCommand_of_inFlight (finishSeek_inFlight s v k) n).trans found
    have details := finishSeek_details s v k
    rw [done, completeSeek, numbered]
    dsimp only
    rw [details]
    obtain ⟨ends, only⟩ := complete_spec (finishSeek s v k) n (okOr k.clamped) _ _ _ p c found'
    exact ⟨_, rfl, only, ends⟩

end Sys2Proof.Machine
end

section
/-! PROOFS. The delay of a gap and the load of its pacing timer (R108 to R110). -/

namespace Sys2Proof.Machine

/-! ### The delay of a gap (R108) -/

/-- A speed at or above 0 halves the compressed gap that many times. -/
theorem delayOf_faster (gap quiet k : Nat) : delayOf gap quiet (k : Int) = min gap quiet / 2 ^ k := by
  simp [delayOf]

/-- A speed at or below 0 doubles the compressed gap that many times. -/
theorem delayOf_slower (gap quiet k : Nat) : delayOf gap quiet (-(k : Int)) = min gap quiet * 2 ^ k := by
  unfold delayOf
  dsimp only
  split
  next still =>
    obtain rfl : k = 0 := by omega
    simp
  next => simp

theorem delayOf_faster_bounds (gap quiet k : Nat) : delayOf gap quiet (k : Int) * 2 ^ k ≤ min gap quiet ∧
    min gap quiet < (delayOf gap quiet (k : Int) + 1) * 2 ^ k := by
  rw [delayOf_faster, Nat.mul_comm (_ + 1)]
  exact ⟨Nat.div_mul_le_self _ _, Nat.lt_mul_div_succ _ (Nat.two_pow_pos k)⟩

/-! ### The load of a timer (R109, R110) -/

/-- The least count of a tap's pulses that covers a delay. -/
theorem ceilDiv_bounds {d tap : Nat} (delay : 0 < d) (pulses : 0 < tap) :
    1 ≤ ceilDiv d tap ∧ d ≤ tap * ceilDiv d tap ∧ tap * (ceilDiv d tap - 1) < d := by
  have whole : 1 ≤ ceilDiv d tap := (Nat.le_div_iff_mul_le pulses).2 (by omega)
  have low : tap * ceilDiv d tap ≤ d + tap - 1 := Nat.mul_div_le _ _
  have high : d + tap - 1 < tap * (ceilDiv d tap + 1) := Nat.lt_mul_div_succ _ pulses
  have lower : tap * (ceilDiv d tap - 1) + tap = tap * ceilDiv d tap := by
    rw [Nat.mul_sub_one, Nat.sub_add_cancel (Nat.le_mul_of_pos_right tap whole)]
  rw [Nat.mul_succ] at high
  exact ⟨whole, by omega, by omega⟩

/-- A count is at most 65,535 where the delay is at most that many pulses. -/
theorem ceilDiv_le_iff {d tap : Nat} (pulses : 0 < tap) : ceilDiv d tap ≤ 65535 ↔ d ≤ 65535 * tap := by
  rw [ceilDiv, ← Nat.lt_succ_iff, Nat.div_lt_iff_lt_mul pulses]
  omega

/-- The timer's load: the finest tap that can count the delay, and segments of the coarsest beyond it. -/
theorem loadTimer_eq (d : Nat) : loadTimer d =
    if d ≤ 65535 then ⟨1, d, 0⟩
    else if d ≤ 65535 * 16 then ⟨16, ceilDiv d 16, 0⟩
    else if d ≤ 65535 * 256 then ⟨256, ceilDiv d 256, 0⟩
    else if d ≤ 65535 * 4096 then ⟨4096, ceilDiv d 4096, 0⟩
    else ⟨4096, ceilDiv d 4096 - 65536 * ((ceilDiv d 4096 - 1) / 65536), (ceilDiv d 4096 - 1) / 65536⟩ := by
  unfold loadTimer
  simp only [ceilDiv_le_iff (show 0 < 16 by decide), ceilDiv_le_iff (show 0 < 256 by decide),
    ceilDiv_le_iff (show 0 < 4096 by decide)]

/-- A load that counts the delay on one tap. -/
theorem ceilDiv_fits {d tap : Nat} (delay : 0 < d) (pulses : 0 < tap) (fits : d ≤ 65535 * tap) :
    1 ≤ ceilDiv d tap ∧ d ≤ tap * ceilDiv d tap ∧ tap * (ceilDiv d tap - 1) < d ∧ ceilDiv d tap ≤ 65535 :=
  have ⟨whole, covers, least⟩ := ceilDiv_bounds delay pulses
  ⟨whole, covers, least, (ceilDiv_le_iff pulses).2 fits⟩

/-- Settles O11: the delay by the sign of the speed, the load by the tap it takes. -/
theorem delayAndTimerLoad : Obligations.DelayAndTimerLoad := by
  refine ⟨fun gap quiet => ⟨delayOf_faster_bounds gap quiet, delayOf_slower gap quiet⟩, fun d delay => ?_⟩
  rw [loadTimer_eq]
  split_ifs with tap1 tap16 tap256 tap4096
  · simp
    omega
  · have := ceilDiv_fits delay (by decide) tap16
    simp
    omega
  · have := ceilDiv_fits delay (by decide) tap256
    simp
    omega
  · have := ceilDiv_fits delay (by decide) tap4096
    simp
    omega
  · have := ceilDiv_bounds delay (show 0 < 4096 by decide)
    simp
    omega

end Sys2Proof.Machine
end

section
/-! PROOFS. The gap and the delay of a frame, the filter, and the bytes of a CHANGE record (R106 to R108, R111, R123, R125,
R175). -/

namespace Sys2Proof.Machine

/-! ### Fields of a record (R175) -/

/-- A little-endian field holds its number as far as its bytes reach. -/
theorem leNat_leBytes (len n : Nat) : leNat (leBytes len n) = n % 256 ^ len := by
  induction len generalizing n with
  | zero => simp [leBytes, leNat, Nat.mod_one]
  | succ len ih =>
    have byte : (BitVec.ofNat 8 n).toNat = n % 256 := BitVec.toNat_ofNat n 8
    rw [leBytes, leNat, ih, byte, Nat.pow_succ', Nat.mod_mul]

/-- A record laid out field by field, each of a length and a number. -/
def layout (fields : List (Nat × Nat)) : List Byte := fields.flatMap fun x => leBytes x.1 x.2

theorem layout_length (fields : List (Nat × Nat)) : (layout fields).length = (fields.map Prod.fst).sum := by
  simp [layout, List.length_flatMap]

/-- Each field of a record stands behind those before it and holds its number. -/
theorem layout_field (fields : List (Nat × Nat)) (rest : List Byte) (i : Nat) (h : i < fields.length) :
    leNat (((layout fields ++ rest).drop ((fields.take i).map Prod.fst).sum).take fields[i].1) =
      fields[i].2 % 256 ^ fields[i].1 := by
  have parts : layout fields ++ rest = layout (fields.take i) ++
      (leBytes fields[i].1 fields[i].2 ++ (layout (fields.drop (i + 1)) ++ rest)) :=
    calc layout fields ++ rest = layout (fields.take i ++ fields[i] :: fields.drop (i + 1)) ++ rest := by
          rw [List.getElem_cons_drop, List.take_append_drop]
      _ = _ := by
        simp only [layout, List.flatMap_append, List.flatMap_cons, List.append_assoc]
  rw [parts, List.drop_left' (layout_length _), List.take_left' (leBytes_length _ _), leNat_leBytes]

/-- The fields of a CHANGE record. -/
def changeFields (number position : Nat) (dir : Direction) (e : Entry) (device : CatalogueEntry) : List (Nat × Nat) :=
  [(1, 1),
    (1, (if dir = .forward then e.priorState else e.newState).code +
      8 * (if dir = .forward then e.newState else e.priorState).code + 64 * dir.code),
    (1, device.kind.code + 4 * qualityClass e.unc + 32 * (e.witnesses.length - 1)),
    (1, flagByte e.isRepeat e.ambiguous e.flags e.forced false), (4, number), (4, position), (5, e.time), (2, e.device),
    (2, device.station), (1, (e.witnesses.head?.map Prod.fst).getD 0), (1, originCode 255 e.origin)]

theorem changeBytes_eq (number position : Nat) (dir : Direction) (e : Entry) (device : CatalogueEntry) :
    changeBytes number position dir e device = padTo 32 (layout (changeFields number position dir e device)) := by
  simp [changeBytes, layout, changeFields, leBytes, byte]

/-- What a field of a CHANGE record holds. -/
theorem changeBytes_field (number position : Nat) (dir : Direction) (e : Entry) (device : CatalogueEntry) (i : Nat)
    (h : i < 11) :
    let fields := changeFields number position dir e device
    leNat (((changeBytes number position dir e device).drop ((fields.take i).map Prod.fst).sum).take (fields[i]'h).1) =
      (fields[i]'h).2 % 256 ^ (fields[i]'h).1 := by
  intro fields
  rw [changeBytes_eq]
  exact layout_field fields _ i h

/-! ### The codes of a CHANGE record fit their bytes -/

theorem SwitchState.code_le (x : SwitchState) : x.code ≤ 4 := by cases x <;> decide

theorem Direction.code_eq (d : Direction) : 64 * d.code = if d = .forward then 0 else 64 := by
  cases d <;> rfl

theorem flagByte_lt (r a : Bool) (f : AlignFlags) (forced prior : Bool) : flagByte r a f forced prior < 256 := by
  have small : ∀ b : Bool, bit b ≤ 1 := by decide
  have := small r
  have := small a
  have := small f.gap
  have := small f.seqBack
  have := small f.clamped
  have := small forced
  have := small f.codeFixed
  have := small prior
  unfold flagByte
  omega

theorem originCode_lt (o : Option Origin) : originCode 255 o < 256 := by
  cases o with
  | none => decide
  | some o => cases o <;> decide

/-! ### The records of a frame (R123, R125) -/

theorem countP_zipIdx {α : Type} (f : α → Bool) (l : List α) : l.zipIdx.countP (fun x => f x.1) = l.countP f := by
  conv_rhs => rw [← List.zipIdx_map_fst 0 l, List.countP_map]
  rfl

/-- The members of a list that pass a test stand among those kept, each behind the kept ones before it. -/
theorem getElem?_filter_zipIdx {α : Type} (f : α → Bool) (l : List α) {j : Nat} (h : j < l.length) (pass : f l[j] = true) :
    (l.zipIdx.filter fun x => f x.1)[(l.take j).countP f]? = some (l[j], j) := by
  have before : (((l.take j).zipIdx).filter fun x => f x.1).length = (l.take j).countP f := by
    rw [← List.countP_eq_length_filter, countP_zipIdx]
  have parts : l.zipIdx = (l.take j).zipIdx ++ (l[j], j) :: (l.drop (j + 1)).zipIdx (j + 1) := by
    conv_lhs => rw [← List.take_append_drop j l, List.drop_eq_getElem_cons h, List.zipIdx_append, List.zipIdx_cons]
    simp [Nat.min_eq_left h.le]
  rw [parts, List.filter_append, List.filter_cons, if_pos pass, List.getElem?_append_right before.le, before, Nat.sub_self,
    List.getElem?_cons_zero]

theorem framePosition_eq (c : ViewContext) (i : Nat) :
    framePosition c i = if c.direction = .forward then c.cursor + i else c.cursor - 1 - i := by
  unfold framePosition
  cases c.direction <;> rfl

section
variable (s : State) (c : ViewContext)

theorem passesFilter_iff (e : Entry) : passesFilter s c e = true ↔
    (c.ranges = [] ∨ ∃ r ∈ c.ranges, r.1 ≤ (s.catalogueEntry e.device).station ∧ (s.catalogueEntry e.device).station ≤ r.2) ∧
      c.kinds.getLsbD (s.catalogueEntry e.device).kind.code = true := by
  simp [passesFilter]

theorem changeRecords_length (number : Nat) (es : List Entry) :
    (changeRecords s c number es).length = es.countP (passesFilter s c) := by
  unfold changeRecords
  rw [List.length_map, ← List.countP_eq_length_filter, countP_zipIdx]

/-- The record of an entry that passes stands behind those of the entries before it that pass. -/
theorem changeRecords_getElem? (number : Nat) (es : List Entry) {j : Nat} (h : j < es.length)
    (pass : passesFilter s c es[j] = true) :
    (changeRecords s c number es)[(es.take j).countP (passesFilter s c)]? =
      some (changeBytes number (framePosition c j) c.direction es[j] (s.catalogueEntry es[j].device)) := by
  unfold changeRecords
  rw [List.getElem?_map, getElem?_filter_zipIdx _ _ h pass]
  rfl

end

/-! ### The gap and the delay of a frame (R106 to R108, R111) -/

section
variable (s : State) {w : View} {f : Frame}

theorem frameDelay_none (h : ¬ (f.cls = .a ∧ w.ctx.mode = .paced ∧ w.step = none) ∨ f.gapFrom = none) :
    frameDelay s w f = 0 := by
  unfold frameDelay
  split
  next paced =>
    rw [h.resolve_left (not_not_intro paced)]
  next => rfl

theorem frameDelay_some (paced : f.cls = .a ∧ w.ctx.mode = .paced ∧ w.step = none) {since : Nat}
    (gap : f.gapFrom = some since) :
    frameDelay s w f = delayOf (frameGap s w.ctx since) w.ctx.quiet w.ctx.speed := by
  unfold frameDelay
  rw [if_pos paced, gap]

theorem frameGap_eq (c : ViewContext) (since : Nat) : frameGap s c since =
    if c.direction = .forward then (entryAt s c.cursor).time - since else since - (entryAt s (c.cursor - 1)).time := by
  unfold frameGap frameStart
  cases c.direction <;> rfl

end

/-- Settles O42: the delay by the frame's class and gap, the filter, and the fields of each record kept. -/
theorem gapsAndChangeRecords : Obligations.GapsAndChangeRecords := by
  refine ⟨fun s w f => ?_, passesFilter_iff, fun s c number es => ?_⟩
  · intro paced delay
    refine ⟨frameDelay_none s, fun timed since gapped => ?_⟩
    intro gap held
    have value : delay = delayOf gap w.ctx.quiet w.ctx.speed :=
      (frameDelay_some s timed gapped).trans (by rw [frameGap_eq])
    rw [value]
    refine ⟨fun k faster => ?_, fun k slower => ?_⟩
    · rw [faster]
      exact delayOf_faster_bounds gap w.ctx.quiet k
    · rw [slower]
      exact delayOf_slower gap w.ctx.quiet k
  · intro records
    refine ⟨changeRecords_length s c number es, fun j h pass => ?_⟩
    intro e device forward before after position
    have place : framePosition c j = position := framePosition_eq c j
    refine ⟨_, changeRecords_getElem? s c number es h pass, changeBytes_length .., ?_⟩
    intro field
    have holds := changeBytes_field number (framePosition c j) c.direction e device
    have b := SwitchState.code_le before
    have a := SwitchState.code_le after
    refine ⟨holds 0 (by decide), (holds 1 (by decide)).trans ?_, (holds 2 (by decide)).trans rfl,
      (holds 3 (by decide)).trans (Nat.mod_eq_of_lt (flagByte_lt ..)), holds 4 (by decide),
      (holds 5 (by decide)).trans (congrArg (· % 2 ^ 32) place), holds 6 (by decide), holds 7 (by decide),
      holds 8 (by decide), holds 9 (by decide), (holds 10 (by decide)).trans ?_⟩
    · have turned := Direction.code_eq c.direction
      change (before.code + 8 * after.code + 64 * c.direction.code) % 256 = _
      rw [turned, Nat.mod_eq_of_lt]
      split <;> omega
    · refine (Nat.mod_eq_of_lt (originCode_lt e.origin)).trans ?_
      cases e.origin <;> rfl

end Sys2Proof.Machine
end

section
/-! PROOFS. The microsecond of the Pacing Timebase, the ends of the timers' segments, and the release of a frame (R109,
R110, R116, R127, R128). -/

namespace Sys2Proof.Machine

/-! ### The eight slots in turn -/

/-- A member of a list without repeats has its place there, once. -/
theorem nodup_split {α : Type} {l : List α} (nodup : l.Nodup) {x : α} (member : x ∈ l) :
    ∃ before after, l = before ++ x :: after ∧ x ∉ before ∧ x ∉ after := by
  obtain ⟨before, after, rfl⟩ := List.append_of_mem member
  rw [List.nodup_append, List.nodup_cons] at nodup
  obtain ⟨-, ⟨later, -⟩, apart⟩ := nodup
  exact ⟨before, after, rfl, fun earlier => apart x earlier x List.mem_cons_self rfl, later⟩

theorem finRange_split (v : Slot) : ∃ before after, List.finRange 8 = before ++ v :: after ∧ v ∉ before ∧ v ∉ after :=
  nodup_split (List.nodup_finRange 8) (List.mem_finRange v)

/-- Slots that an operation leaves as they are, in turn. -/
theorem foldl_slots_idle {f : State → Slot → State} {s : State} {l : List Slot} (idle : ∀ x ∈ l, f s x = s) :
    l.foldl f s = s := by
  induction l with
  | nil => rfl
  | cons x l ih => rw [List.foldl_cons, idle x List.mem_cons_self, ih fun y hy => idle y (List.mem_cons_of_mem x hy)]

/-! ### A microsecond (R109, R110) -/

section
variable {s : State} {v : Slot}

theorem pulse_view (s : State) (x : Slot) : (pulse s).views[x] = { s.views[x] with
    timer := s.views[x].timer.map (Countdown.pulse (s.timebase + 1)) } := Vector.getElem_map _ x.isLt

theorem segmentOver_iff (s : State) (v : Slot) : SegmentOver s v ↔
    ∃ c, s.views[v].timer = some c ∧ (c.pulse (s.timebase + 1)).count = 0 := by
  simp only [SegmentOver, pulse_count]

/-- A timer that ends no segment is left as the pulse leaves it. -/
theorem endSegment_running {t : State} (view : t.views[v] = (pulse s).views[v]) (counting : ¬ SegmentOver s v) :
    endSegment t v = t := by
  have timer := congrArg View.timer view
  rw [pulse_view] at timer
  unfold endSegment
  rw [timer]
  cases loaded : s.views[v].timer with
  | none => rfl
  | some c => exact if_neg fun zero => counting ((segmentOver_iff s v).2 ⟨c, loaded, zero⟩)

/-- A microsecond in which no timer ends a segment. -/
theorem tick_running (counting : ∀ x : Slot, ¬ SegmentOver s x) : tick s = pulse s :=
  foldl_slots_idle fun x _ => endSegment_running rfl (counting x)

/-- A microsecond in which one timer alone ends a segment. -/
theorem tick_one (others : ∀ x : Slot, x ≠ v → ¬ SegmentOver s x) : tick s = endSegment (pulse s) v := by
  obtain ⟨before, after, split, earlier, later⟩ := finRange_split v
  have first : before.foldl endSegment (pulse s) = pulse s :=
    foldl_slots_idle fun x hx => endSegment_running rfl (others x fun e => earlier (e ▸ hx))
  have rest : after.foldl endSegment (endSegment (pulse s) v) = endSegment (pulse s) v :=
    foldl_slots_idle fun x hx =>
      have other : x ≠ v := fun e => later (e ▸ hx)
      endSegment_running ((atView_endSegment (pulse s) v).2.1 x other) (others x other)
  unfold tick
  rw [split, List.foldl_append, List.foldl_cons, first, rest]

/-- The microsecond after which slot `v`'s view is `x`. -/
def pulsedTo (s : State) (v : Slot) (x : View) : State := (pulse s).setView v x

/-- A timer that expires is IDLE, and its frame is released (R110). -/
theorem expireTimer_eq (s : State) (v : Slot) : expireTimer s v =
    s.views[v].frame.elim (s.setView v { s.views[v] with timer := none })
      (releaseFrame (s.setView v { s.views[v] with timer := none }) v) := by
  unfold expireTimer
  dsimp only
  rw [State.setView_get_self]
  cases s.views[v].frame <;> rfl

section
variable {c : Countdown} (loaded : s.views[v].timer = some c) (zero : SegmentOver s v)
  (others : ∀ x : Slot, x ≠ v → ¬ SegmentOver s x)
include loaded zero others

/-- The one timer that ends a segment loads the next, or expires (R110). -/
theorem tick_ends : tick s =
    if c.segments = 0 then expireTimer (pulse s) v else reloadTimer (pulse s) v (c.pulse (s.timebase + 1)) := by
  obtain ⟨c', loaded', zero⟩ := (segmentOver_iff s v).1 zero
  obtain rfl : c' = c := Option.some.inj (loaded'.symm.trans loaded)
  rw [tick_one others]
  unfold endSegment
  rw [pulse_view, loaded]
  exact (if_pos zero).trans (by rw [pulse_segments])

theorem tick_reloads (left : c.segments ≠ 0) : tick s =
    pulsedTo s v { s.views[v] with timer := some ⟨c.tap, 65536, c.segments - 1⟩ } := by
  rw [tick_ends loaded zero others, if_neg left, reloadTimer, pulse_view, pulse_segments]
  simp only [← pulse_tap (s.timebase + 1) c]
  rfl

theorem tick_expires (last : c.segments = 0) : tick s =
    s.views[v].frame.elim (pulsedTo s v { s.views[v] with timer := none })
      (releaseFrame (pulsedTo s v { s.views[v] with timer := none }) v) := by
  rw [tick_ends loaded zero others, if_pos last, expireTimer_eq, pulse_view]
  rfl

end

end

/-- Settles O2: on an empty queue the step is a microsecond, which takes the slots in turn. -/
theorem idleStepCountsMicrosecond : Obligations.IdleStepCountsMicrosecond := by
  intro s idle pulsed
  have passes : step s = .next (tick s) := by
    unfold step
    rw [idle]
  rw [passes]
  refine ⟨fun counting => congrArg _ (tick_running counting), fun v c loaded zero others =>
    ⟨fun left => congrArg _ (tick_reloads loaded zero others left), fun last => ?_⟩⟩
  have expires := tick_expires loaded zero others last
  refine ⟨fun bare => ?_, fun f formed => ?_⟩
  · rw [expires, bare]
    rfl
  · rw [expires, formed]
    rfl

/-! ### The release of a frame (R116, R127, R128) -/

section
variable {s : State} {v : Slot} {f : Frame}

/-- The break test at a frame's release (R116). -/
theorem releaseFrame_eq (s : State) (v : Slot) (f : Frame) : releaseFrame s v f =
    if (s.views[v].armed = some true ∨ f.phase = .delaying true) ∧ frameBeyond s s.views[v].ctx = true then
      stopView s v .breakTime 0
    else publishFrame s v f := by
  unfold releaseFrame
  simp only [Bool.and_eq_true, Bool.or_eq_true, beq_iff_eq]

theorem publishFrame_of_room (near : deltaDistance s v ≤ 4096)
    (room : (frameEntries s s.views[v].ctx f.count).countP (passesFilter s s.views[v].ctx) ≤ 4096 - deltaDistance s v) :
    publishFrame s v f = applyFrame s v f := by
  unfold publishFrame
  rw [evaluateRoom_of_near near, deltaFree_of_near near]
  exact if_pos room

/-- A frame without room for its records stalls its view (R128). -/
theorem publishFrame_of_full (near : deltaDistance s v ≤ 4096)
    (full : 4096 - deltaDistance s v < (frameEntries s s.views[v].ctx f.count).countP (passesFilter s s.views[v].ctx)) :
    let x : View := { s.views[v] with state := .stalled, timer := none, frame := some { f with phase := .stalled } }
    publishFrame s v f = (s.setView v x).wrote [statusWrite v x] := by
  intro x
  unfold publishFrame
  rw [evaluateRoom_of_near near, deltaFree_of_near near, ← setView_writeViewStatus]
  exact if_neg full.not_ge

end

/-! ### The rows of the pacing timers (R110) -/

theorem exec_timerSegmentReload (s : State) (v : Slot) :
    exec (.timerSegmentReload v) s = .next (if segmentEnds s v fun k => k != 0 then tick s else s) := rfl

theorem exec_pacingTimerExpiry (s : State) (v : Slot) :
    exec (.pacingTimerExpiry v) s = .next (if segmentEnds s v fun k => k == 0 then tick s else s) := rfl

/-- A count that does not reach 0 is no timer row's. -/
theorem segmentEnds_running {s : State} {v : Slot} (counting : ¬ SegmentOver s v) (f : Nat → Bool) :
    segmentEnds s v f = false :=
  Bool.eq_false_iff.2 fun ends =>
    have ⟨c, loaded, zero, _⟩ := (segmentEnds_iff s v f).1 ends
    counting ((segmentOver_iff s v).2 ⟨c, loaded, zero⟩)

/-- A count that reaches 0 is one timer row's, by the segments left. -/
theorem segmentEnds_over {s : State} {v : Slot} {c : Countdown} (loaded : s.views[v].timer = some c)
    (zero : SegmentOver s v) (f : Nat → Bool) : segmentEnds s v f = f c.segments := by
  obtain ⟨c', loaded', zero⟩ := (segmentOver_iff s v).1 zero
  obtain rfl : c' = c := Option.some.inj (loaded'.symm.trans loaded)
  unfold segmentEnds
  rw [loaded]
  exact (congrArg (· && f c'.segments) (decide_eq_true zero)).trans (Bool.true_and _)

/-- Settles O43: the break test and the room test of a release, and the microsecond of a timer row. -/
theorem timerEventsReleaseFrame : Obligations.TimerEventsReleaseFrame := by
  refine ⟨fun s v f => ?_, fun s v => ⟨fun counting => ?_, fun c loaded zero others => ?_⟩⟩
  · intro w n stops
    refine ⟨fun stop => (releaseFrame_eq s v f).trans (if_pos stop), fun goes near room => ?_, fun goes near full => ?_⟩
    · exact (releaseFrame_eq s v f).trans ((if_neg goes).trans (publishFrame_of_room near room))
    · obtain ⟨frame, shown, outside⟩ := setView_status_spec s v
        { w with state := .stalled, timer := none, frame := some { f with phase := .stalled } }
      refine ⟨_, (releaseFrame_eq s v f).trans ((if_neg goes).trans (publishFrame_of_full near full)), frame, ?_, outside⟩
      rw [wrote_views, State.setView_get_self]
      exact shown
  · rw [exec_timerSegmentReload, exec_pacingTimerExpiry, segmentEnds_running counting, segmentEnds_running counting]
    exact ⟨rfl, rfl⟩
  · intro pulsed
    rw [exec_timerSegmentReload, exec_pacingTimerExpiry, segmentEnds_over loaded zero, segmentEnds_over loaded zero]
    refine ⟨fun left => ?_, fun last => ?_⟩
    · rw [tick_reloads loaded zero others left, if_neg (by simpa using left), if_pos (by simpa using left)]
      exact ⟨rfl, rfl⟩
    · rw [tick_expires loaded zero others last, last]
      refine ⟨rfl, fun bare => ?_, fun f formed => ?_⟩
      · rw [bare]
        rfl
      · rw [formed]
        rfl

end Sys2Proof.Machine
end

section
/-! PROOFS. RUN, STEP and HOLD: a new run, and a stop by command (R112 to R114). -/

namespace Sys2Proof.Machine

/-! ### A new run (R107, R112, R114, R116) -/

/-- A view RUNNING in a new run, with context `c` and STEP `st`. -/
def View.inRun (w : View) (c : ViewContext) (st : Option StepOp) : View := { w with
  state := .running, ctx := c, armed := none, noGap := true, lastFrameTime := none, step := st }

theorem quiet_view (s : State) (v : Slot) : (quiet s v).views[v] = s.views[v].quieted := by
  rw [quiet_eq]
  exact State.setView_get_self s v _

theorem startMotion_quiet (s : State) (v : Slot) (c : ViewContext) (st : Option StepOp) :
    startMotion (quiet s v) v c st =
      ((quiet s v).setView v (s.views[v].quieted.inRun c st)).wrote [statusWrite v (s.views[v].quieted.inRun c st)] := by
  unfold startMotion
  rw [setView_writeViewStatus, quiet_view]
  rfl

/-- What the start of a run changes: the view, its status record, and the withdrawn reads of a frame discarded. -/
theorem startMotion_spec (s : State) (v : Slot) (c : ViewContext) (st : Option StepOp) :
    let w := s.views[v]
    let u := startMotion (quiet s v) v c st
    u = { s with
      ring := { s.ring with replica := u.ring.replica, own := u.ring.own }
      views := s.views.set v u.views[v]
      arbiter := if w.state = .running ∨ w.state = .stalled then s.arbiter.withdrawFrame v else s.arbiter } ∧
    (∀ a, ¬ InBytes a (Config.viewStatusAddr v) 64 → u.byteAt a = s.byteAt a) ∧
    u.views[v].state = .running ∧ u.views[v].ctx = c ∧ u.views[v].armed = none ∧ u.views[v].noGap = true ∧
    u.views[v].lastFrameTime = none ∧ u.views[v].step = st ∧ u.views[v].producer = w.producer ∧
    (Moving w → u.views[v].frame = none ∧ u.views[v].timer = none ∧ u.views[v].atEdge = false) := by
  intro w u
  have begun : u = _ := startMotion_quiet s v c st
  have view : u.views[v] = w.quieted.inRun c st := by
    rw [begun, wrote_views, State.setView_get_self]
  rw [view]
  refine ⟨?_, fun a outside => ?_, rfl, rfl, rfl, rfl, rfl, rfl, quieted_producer w, fun moving => ?_⟩
  · rw [begun, quiet_eq]
    simp only [State.setView, State.wrote, Vector.set_set]
    rfl
  · rw [begun, wrote_status_byteAt _ _ _ outside, quiet_eq]
    rfl
  · rw [quieted_of_moving moving]
    exact ⟨rfl, rfl, rfl⟩

/-! ### RUN and STEP (R112, R114) -/

section
variable {s : State} {n : Nat} {p : PortId} {d : Descriptor} {v : Slot}

theorem directionOf_select (d : Descriptor) (off : Nat) :
    directionOf (d.select off) = if d.field off 1 = 0 then .forward else .backward := select_ite d off _ _

theorem paceModeOf_select (d : Descriptor) (off : Nat) :
    paceModeOf (d.select off) = if d.field off 1 = 0 then .paced else .flat := select_ite d off _ _

theorem exec_run_down (names : NamesView s p d v) (taken : Taken s n .run p d) (down : s.ring.up = false) :
    exec (.run n) s = .next (complete s n .badState 0 0 0) :=
  congrArg Host.Outcome.next ((withView_taken taken names _).trans (if_pos down))

theorem exec_run_up (names : NamesView s p d v) (taken : Taken s n .run p d) (up : s.ring.up = true) :
    exec (.run n) s = .next (formFrame (complete (startMotion (quiet s v) v { s.views[v].ctx with
        direction := if d.field 8 1 = 0 then .forward else .backward
        mode := if d.field 9 1 = 0 then .paced else .flat, budget := 0 } none) n .ok s.views[v].ctx.cursor
      (if d.field 8 1 = 0 then 0 else 1) 0) v) := by
  have code : (directionOf (d.select 8)).code = if d.field 8 1 = 0 then 0 else 1 := by
    rw [directionOf_select]
    split <;> rfl
  refine congrArg Host.Outcome.next ((withView_taken taken names _).trans ((if_neg (by simp [up])).trans ?_))
  dsimp only
  rw [quiet_view, quieted_ctx, code, directionOf_select, paceModeOf_select]

theorem exec_step_down (names : NamesView s p d v) (taken : Taken s n .step p d) (down : s.ring.up = false) :
    exec (.step n) s = .next (complete s n .badState 0 0 0) :=
  congrArg Host.Outcome.next ((withView_taken taken names _).trans (if_pos down))

theorem exec_step_up (names : NamesView s p d v) (taken : Taken s n .step p d) (up : s.ring.up = true) :
    exec (.step n) s = .next (formFrame (startMotion (quiet (markStarted s n) v) v { s.views[v].ctx with
        direction := if d.field 10 1 = 0 then .forward else .backward, budget := max 1 (d.field 8 2) }
      (some ⟨n, 0, d.field 8 2 == 0⟩)) v) := by
  refine congrArg Host.Outcome.next ((withView_taken taken names _).trans ((if_neg (by simp [up])).trans ?_))
  dsimp only
  rw [quiet_markStarted_view, quieted_ctx, directionOf_select]

end

/-! ### HOLD (R113) -/

/-- The end of another command leaves this one in flight. -/
theorem findCommand_complete_ne {s : State} {n m : Nat} (other : m ≠ n) (r : Result) (v1 v2 v3 : Nat) :
    findCommand (complete s m r v1 v2 v3) n = findCommand s n := by
  cases found : findCommand s m with
  | none => unfold complete; rw [found]
  | some x =>
    obtain ⟨⟨inFlight, -⟩, -, others, -⟩ := complete_spec s m r v1 v2 v3 x.1 x.2 found
    have kept : ∀ q : PortId, (complete s m r v1 v2 v3).ports[q].inFlight.find? (fun c => c.serial == n) =
        s.ports[q].inFlight.find? (fun c => c.serial == n) := by
      intro q
      by_cases here : q = x.1
      · rw [here, inFlight, List.find?_filter]
        refine congrArg (List.find? · _) (funext fun c => ?_)
        by_cases named : c.serial = n
        · simp [named, other.symm]
        · simp [named]
      · rw [others q here]
    unfold findCommand
    simp only [kept]

/-- A stop leaves every command in flight but its view's STEP. -/
theorem findCommand_stopView {s : State} {v : Slot} {n : Nat} (other : ∀ st, s.views[v].step = some st → st.serial ≠ n)
    (cause : StopCause) (device : Nat) : findCommand (stopView s v cause device) n = findCommand s n := by
  have raised := findCommand_of_inFlight (stopRaised_inFlight s v cause device) n
  have step := stopRaised_step s v cause device
  rw [stopView_eq]
  cases inFlight : s.views[v].step with
  | none => rw [endStep_of_none (step.trans inFlight), raised]
  | some st =>
    rw [endStep_of_some (step.trans inFlight), findCommand_complete_ne (other st inFlight)]
    exact raised

section
variable {s : State} {n : Nat} {p : PortId} {d : Descriptor} {v : Slot}

theorem exec_hold (names : NamesView s p d v) (taken : Taken s n .hold p d) : exec (.hold n) s =
    .next (complete (holdStop s v) n .ok (holdStop s v).views[v].ctx.cursor
      (bit (decide (s.views[v].state = .running ∨ s.views[v].state = .stalled))) 0) :=
  congrArg Host.Outcome.next (withView_taken taken names _)

theorem exec_hold_still (names : NamesView s p d v) (taken : Taken s n .hold p d) (still : ¬ Moving s.views[v]) :
    exec (.hold n) s = .next (complete s n .ok s.views[v].ctx.cursor 0 0) := by
  have same : holdStop s v = s := if_neg still
  unfold Moving at still
  rw [exec_hold names taken, same, decide_eq_false still]
  rfl

theorem exec_hold_moving (names : NamesView s p d v) (taken : Taken s n .hold p d) (moving : Moving s.views[v]) :
    exec (.hold n) s = .next (complete (stopView s v .holdCmd 0) n .ok s.views[v].ctx.cursor 1 0) := by
  have stopped : holdStop s v = stopView s v .holdCmd 0 := if_pos moving
  have cursor : (stopView s v .holdCmd 0).views[v].ctx.cursor = s.views[v].ctx.cursor := by
    rw [stopView_view_eq]
    rfl
  unfold Moving at moving
  rw [exec_hold names taken, stopped, cursor, decide_eq_true moving]
  rfl

end

/-- Settles O38: a new run's start and the forming of its first frame, and HOLD's stop. -/
theorem runStepAndHold : Obligations.RunStepAndHold := by
  refine ⟨fun s n p d v names => ?_, fun s n p d v taken names other => ⟨fun still => ?_, fun moving => ?_⟩⟩
  · intro w starts
    refine ⟨fun taken => ⟨fun down => ?_, fun up => ?_⟩, fun taken => ⟨fun down => ?_, fun up => ?_⟩⟩
    · exact taken.completes rfl (exec_run_down names taken down)
    · obtain ⟨frame, view⟩ := startMotion_spec s v { w.ctx with
        direction := if d.field 8 1 = 0 then .forward else .backward
        mode := if d.field 9 1 = 0 then .paced else .flat, budget := 0 } none
      have found := (findCommand_of_ports (congrArg State.ports frame) n).trans taken.1
      obtain ⟨ends, only⟩ := complete_spec _ n .ok w.ctx.cursor (if d.field 8 1 = 0 then 0 else 1) 0 p _ found
      exact ⟨_, _, ⟨frame, view⟩, ends, only, exec_run_up names taken up⟩
    · exact taken.completes rfl (exec_step_down names taken down)
    · exact ⟨_, startMotion_spec (markStarted s n) v _ _, exec_step_up names taken up⟩
  · exact taken.completes rfl (exec_hold_still names taken still)
  · exact completes_of_eq (c := ⟨n, d, false⟩) (exec_hold_moving names taken moving)
      ((findCommand_stopView other .holdCmd 0).trans taken.1)

end Sys2Proof.Machine
end

section
/-! PROOFS. The ring goes DOWN and UP: what work while it is DOWN keeps, the views stopped at its loss, the sync packets, and
the return of the part's own (R119, R159, R163, R166 to R168). -/

namespace Sys2Proof.Machine

/-! ### Work while the ring is DOWN -/

/-- What work while the ring is DOWN keeps of a port: its binding, its gate, and the causes present. -/
structure KeepsPort (x y : Port) : Prop where
  bound : y.bound = x.bound
  detaching : y.detaching = x.detaching
  fired : y.fired = x.fired
  causes : ∀ c, hasCause x.causes c = true → hasCause y.causes c = true

theorem KeepsPort.refl (x : Port) : KeepsPort x x := ⟨rfl, rfl, rfl, fun _ h => h⟩

theorem KeepsPort.trans {x y z : Port} (h : KeepsPort x y) (k : KeepsPort y z) : KeepsPort x z :=
  ⟨k.bound.trans h.bound, k.detaching.trans h.detaching, k.fired.trans h.fired, fun c hc => k.causes c (h.causes c hc)⟩

/-- `t` is `s` after work while the ring is DOWN: of the Ring Interface the local replica alone has changed, the ring
state word stands, and every port keeps its binding, its gate and its causes. -/
structure WorksDown (s t : State) : Prop where
  ring : t.ring = { s.ring with replica := t.ring.replica }
  word : ∀ a, InBytes a Config.partStatusAddr 8 → t.byteAt a = s.byteAt a
  ports : ∀ q : PortId, KeepsPort s.ports[q] t.ports[q]

theorem WorksDown.refl (s : State) : WorksDown s s := ⟨rfl, fun _ _ => rfl, fun _ => KeepsPort.refl _⟩

theorem WorksDown.trans {s t u : State} (h : WorksDown s t) (k : WorksDown t u) : WorksDown s u where
  ring := by rw [k.ring, h.ring]
  word a ha := (k.word a ha).trans (h.word a ha)
  ports q := (h.ports q).trans (k.ports q)

theorem WorksDown.down {s t : State} (h : WorksDown s t) (down : s.ring.up = false) : t.ring.up = false := by
  rw [h.ring]
  exact down

theorem WorksDown.reports {s t : State} (h : WorksDown s t) (q : PortId) : reports t q = reports s q := by
  unfold Machine.reports
  rw [(h.ports q).bound, (h.ports q).detaching]

/-- What reaches neither the Ring Interface nor the ports. -/
theorem worksDown_of_same {s t : State} (ring : t.ring = s.ring) (ports : t.ports = s.ports) : WorksDown s t where
  ring := by rw [ring]
  word a _ := by
    unfold State.byteAt
    rw [ring]
  ports q := by
    rw [ports]
    exact KeepsPort.refl _

theorem worksDown_setView (s : State) (v : Slot) (x : View) : WorksDown s (s.setView v x) := worksDown_of_same rfl rfl

theorem worksDown_setPort {s : State} {p : PortId} {x : Port} (keeps : KeepsPort s.ports[p] x) :
    WorksDown s (s.setPort p x) where
  ring := rfl
  word _ _ := rfl
  ports q := by
    rw [State.setPort_get]
    split
    next here => exact here ▸ keeps
    next => exact KeepsPort.refl _

section
variable {s : State} (down : s.ring.up = false)
include down

theorem worksDown_wrote {ws : List (Nat × List Byte)}
    (apart : ∀ w ∈ ws, w.1 + w.2.length ≤ Config.partStatusAddr ∨ Config.partStatusAddr + 8 ≤ w.1) :
    WorksDown s (s.wrote ws) where
  ring := by
    unfold State.wrote
    simp [down]
  word a ha := wrote_byteAt fun w hw => by
    have := apart w hw
    unfold InBytes at *
    omega
  ports _ := KeepsPort.refl _

theorem worksDown_partWrite {a : Nat} {bs : List Byte}
    (apart : a + bs.length ≤ Config.partStatusAddr ∨ Config.partStatusAddr + 8 ≤ a) : WorksDown s (s.partWrite a bs) := by
  rw [partWrite_eq_wrote]
  exact worksDown_wrote down (by simpa using apart)

theorem worksDown_writePortStatus (p : PortId) : WorksDown s (s.writePortStatus p) :=
  worksDown_partWrite down (by
    have := p.isLt
    simp only [portStatusBytes_length, Config.portStatusAddr, Config.portBase, Config.partStatusAddr]
    omega)

theorem worksDown_writeBinding (p : PortId) : WorksDown s (s.writeBinding p) := worksDown_partWrite down (by omega)

/-- A notice is discarded. -/
theorem sendNotice_down (n : Node) (k : NoticeType) (x : BitVec 32) : s.sendNotice n k x = s :=
  if_neg (by simp [down])

/-- No gate fires. -/
theorem fireGate_down (p : PortId) : fireGate s p = s := by
  unfold fireGate
  split
  · exact if_neg (by simp [down])
  · rfl

end

theorem hasCause_or {set : Byte} {c : Cause} (present : hasCause set c = true) (more : Byte) :
    hasCause (set ||| more) c = true := by
  unfold hasCause at *
  rw [bne_iff_ne] at *
  intro absent
  refine present (BitVec.eq_of_getLsbD_eq fun i _ => ?_)
  have clear := congrArg (BitVec.getLsbD · i) absent
  simp only [BitVec.getLsbD_and, BitVec.getLsbD_or] at clear ⊢
  revert clear
  cases set.getLsbD i <;> cases c.mask.getLsbD i <;> simp

/-- A mark and its status record lie above the port regions and the part status page. -/
theorem abovePorts_mark (s : State) (v : Slot) (bs : List Byte) : AbovePorts (markWrites s v bs) := by
  unfold markWrites
  split
  · exact (abovePorts_cons ((deltaEntry_bounds v _).1.trans' (by decide)) abovePorts_nil).append (abovePorts_status v _)
  · exact abovePorts_status v _

section
variable {s : State} (down : s.ring.up = false)
include down

theorem worksDown_raiseCause (p : PortId) (c : Cause) : WorksDown s (raiseCause s p c) := by
  unfold raiseCause
  split
  · have marked : WorksDown s (s.setPort p { s.ports[p] with causes := s.ports[p].causes ||| c.mask }) :=
      worksDown_setPort ⟨rfl, rfl, rfl, fun _ present => hasCause_or present _⟩
    have shown := marked.trans (worksDown_writePortStatus (marked.down down) p)
    rw [fireGate_down (shown.down down)]
    exact shown
  · exact WorksDown.refl s

theorem worksDown_applyPendingDepth (p : PortId) : WorksDown s (applyPendingDepth s p) := by
  unfold applyPendingDepth
  split
  next d _ =>
    split
    · have lowered : WorksDown s (s.setPort p { s.ports[p] with depth := d, pendingDepth := none }) :=
        worksDown_setPort ⟨rfl, rfl, rfl, fun _ present => present⟩
      have shown := lowered.trans (worksDown_writePortStatus (lowered.down down) p)
      exact shown.trans (worksDown_writeBinding (shown.down down) p)
    · exact WorksDown.refl s
  next => exact WorksDown.refl s

theorem worksDown_notifyEnd (b : Option Node) (d : Descriptor) (i : Index) : WorksDown s (notifyEnd s b d i) := by
  unfold notifyEnd
  split
  · rw [sendNotice_down down, ite_self]
    exact WorksDown.refl s
  · exact WorksDown.refl s

theorem worksDown_writeCompletion (n : Nat) (p : PortId) (d : Descriptor) (r : Result) (v1 v2 v3 : Nat) :
    WorksDown s (writeCompletion s n p d r v1 v2 v3) := by
  have record : WorksDown s (s.partWrite (Config.completionEntry p (s.ports[p].produced.toNat % Config.ringEntries))
      (completionBytes d r v1 v2 v3)) := worksDown_partWrite down (by
    have := p.isLt
    simp only [completionBytes_length, Config.completionEntry, Config.portBase, Config.ringEntries, Config.partStatusAddr]
    omega)
  have raised := record.trans (worksDown_setPort (p := p) (x := { s.ports[p].released n with
    produced := s.ports[p].produced + 1 }) ⟨rfl, rfl, rfl, fun _ present => present⟩)
  have shown := raised.trans (worksDown_writePortStatus (raised.down down) p)
  exact shown.trans (worksDown_notifyEnd (shown.down down) _ _ _)

theorem worksDown_complete (n : Nat) (r : Result) (v1 v2 v3 : Nat) : WorksDown s (complete s n r v1 v2 v3) := by
  unfold complete
  split
  next => exact WorksDown.refl s
  next p c _ =>
    split
    · have written := worksDown_writeCompletion down n p c.descriptor r v1 v2 v3
      exact written.trans (worksDown_applyPendingDepth (written.down down) p)
    · have released : WorksDown s (s.setPort p (s.ports[p].released n)) :=
        worksDown_setPort ⟨rfl, rfl, rfl, fun _ present => present⟩
      have shown := released.trans (worksDown_writePortStatus (released.down down) p)
      exact shown.trans (worksDown_applyPendingDepth (shown.down down) p)

/-! ### A stop while the ring is DOWN (R118, R119) -/

theorem worksDown_evaluateRoom (v : Slot) : WorksDown s (evaluateRoom s v) := by
  unfold evaluateRoom
  split
  · exact worksDown_raiseCause down _ _
  · exact WorksDown.refl s

theorem worksDown_endStep (v : Slot) (cause : StopCause) : WorksDown s (endStep s v cause) := by
  unfold endStep
  dsimp only
  split
  next st _ =>
    have ended := worksDown_setView s v { s.views[v] with step := none, ctx := { s.views[v].ctx with budget := 0 } }
    exact ended.trans (worksDown_complete (ended.down down) _ _ _ _ _)
  next => exact WorksDown.refl s

theorem worksDown_stopMarked (v : Slot) (cause : StopCause) (device : Nat) :
    WorksDown s (stopMarked s v cause device) := by
  have held : WorksDown s (stopHeld s v cause device) := worksDown_of_same rfl rfl
  have room := held.trans (worksDown_evaluateRoom (held.down down) v)
  rw [stopMarked_eq]
  have marked := room.trans (worksDown_setView _ v (markedView (stopHeld s v cause device) v))
  refine marked.trans (worksDown_wrote (marked.down down) fun w hw => Or.inr ?_)
  have := abovePorts_mark (stopHeld s v cause device) v (stopMarkBytes cause device) w hw
  simp only [Config.partStatusAddr]
  omega

theorem worksDown_stopRaised (v : Slot) (cause : StopCause) (device : Nat) :
    WorksDown s (stopRaised s v cause device) := by
  have marked := worksDown_stopMarked down v cause device
  unfold stopRaised
  split
  · exact marked.trans (worksDown_raiseCause (marked.down down) _ _)
  · exact marked

theorem worksDown_stopView (v : Slot) (cause : StopCause) (device : Nat) : WorksDown s (stopView s v cause device) := by
  have raised := worksDown_stopRaised down v cause device
  rw [stopView_eq]
  exact raised.trans (worksDown_endStep (raised.down down) v cause)

end

/-! ### SIGNAL_LOSS (R119, R166, R167) -/

/-- The ring state word of the part status page. -/
theorem partStatusBytes_ringWord (s : State) : ((partStatusBytes s).drop 0).take 8 =
    [byte (bit s.ring.up), byte s.ring.node.val, byte s.ring.size, byte s.journal.state.code,
      byte s.ring.lossFlags.toNat, refusedByte s.ring.lastRefused] ++ zeros 2 := by
  simp [partStatusBytes, zeros]

/-- The ring state word that is shown stays up to date. -/
theorem WorksDown.ringWordShown {s t : State} (h : WorksDown s t) (journal : t.journal = s.journal)
    (shown : RingWordShown s) : RingWordShown t := by
  unfold RingWordShown PageShows at *
  rw [partStatusBytes_ringWord] at *
  have same : ∀ x, InBytes x (Config.partStatusAddr + 0) 8 → t.byteAt x = s.byteAt x := h.word
  rw [h.ring, journal]
  exact stands_of_byteAt _ _ _ _ (by simpa using same) shown

/-- The state in which the ring is DOWN, before the views that move are stopped. -/
def ringLost (s : State) : State :=
  State.writeRingWord { s with ring := { s.ring with signal := false, up := false, own := [], syncWaiting := false } }

theorem exec_signalLoss_up {s : State} (up : s.ring.up = true) :
    exec .signalLoss s = .next ((List.finRange 8).foldl stopAtLoss (ringLost s)) :=
  congrArg Host.Outcome.next (if_pos up)

theorem exec_signalLoss_down {s : State} (down : s.ring.up = false) :
    exec .signalLoss s = .next { s with ring := { s.ring with signal := false, syncWaiting := false } } :=
  congrArg Host.Outcome.next (if_neg (by simp [down]))

theorem stopAtLoss_moving {s : State} {v : Slot} (moving : Moving s.views[v]) :
    stopAtLoss s v = stopView s v .ringDown 0 := if_pos moving

theorem stopAtLoss_still {s : State} {v : Slot} (still : ¬ Moving s.views[v]) : stopAtLoss s v = s := if_neg still

theorem atView_stopAtLoss (s : State) (v : Slot) : AtView s (stopAtLoss s v) v := by
  unfold stopAtLoss
  split
  · exact atView_stopView s v _ _
  · exact AtView.refl s v

theorem worksDown_stopAtLoss {s : State} (down : s.ring.up = false) (v : Slot) : WorksDown s (stopAtLoss s v) := by
  unfold stopAtLoss
  split
  · exact worksDown_stopView down v _ _
  · exact WorksDown.refl s

theorem SameJournal.trans {s t u : State} (h : SameJournal s t) (k : SameJournal t u) : SameJournal s u := by
  obtain ⟨h1, h2, h3, h4, h5, h6, h7, h8, h9, h10, h11⟩ := h
  obtain ⟨k1, k2, k3, k4, k5, k6, k7, k8, k9, k10, k11⟩ := k
  exact ⟨k1.trans h1, k2.trans h2, k3.trans h3, k4.trans h4, k5.trans h5, k6.trans h6, k7.trans h7, k8.trans h8,
    k9.trans h9, k10.trans h10, k11.trans h11⟩

theorem SameJournal.journal {s t : State} (h : SameJournal s t) : t.journal = s.journal := by
  obtain ⟨-, -, -, -, -, -, journal, -⟩ := h
  exact journal

/-- What each of several operations in turn leaves untouched. -/
theorem foldl_untouched {α β : Type} {f : State → β → State} {g : State → α} {l : List β}
    (untouched : ∀ s, ∀ x ∈ l, g (f s x) = g s) (s : State) : g (l.foldl f s) = g s := by
  induction l generalizing s with
  | nil => rfl
  | cons x l ih =>
    rw [List.foldl_cons, ih fun t y hy => untouched t y (List.mem_cons_of_mem x hy), untouched s x List.mem_cons_self]

/-- The views' stops at ring loss, in turn. -/
theorem worksDown_stopsAtLoss {s : State} (down : s.ring.up = false) (l : List Slot) :
    WorksDown s (l.foldl stopAtLoss s) ∧ SameJournal s (l.foldl stopAtLoss s) ∧
      (l.foldl stopAtLoss s).directory = s.directory := by
  induction l generalizing s with
  | nil => exact ⟨WorksDown.refl s, (AtView.refl s 0).sameJournal, rfl⟩
  | cons x l ih =>
    have stopped := worksDown_stopAtLoss down x
    have reached := atView_stopAtLoss s x
    obtain ⟨works, journal, directory⟩ := ih (stopped.down down)
    exact ⟨stopped.trans works, reached.sameJournal.trans journal, directory.trans reached.directory⟩

/-- A slot that is not among those taken keeps its view. -/
theorem stopsAtLoss_view_ne {v : Slot} {l : List Slot} (other : v ∉ l) (s : State) :
    (l.foldl stopAtLoss s).views[v] = s.views[v] :=
  foldl_untouched (g := fun s => s.views[v])
    (fun s x hx => (atView_stopAtLoss s x).2.1 v fun e => other (e ▸ hx)) s

/-- A stop's cause stands on the owner port. -/
theorem stopView_hasCause {s : State} (down : s.ring.up = false) {v : Slot} {cause : StopCause} (device : Nat)
    (raises : cause.raises = true) (bound : reports s s.views[v].ctx.owner = true) :
    hasCause (stopView s v cause device).ports[s.views[v].ctx.owner].causes .viewStopped = true := by
  rw [stopView_eq]
  have raised := worksDown_stopRaised down v cause device
  exact ((worksDown_endStep (raised.down down) v cause).ports _).causes _ (stopRaised_hasCause device raises bound)

/-- What ring loss leaves of slot `v`: its stop among those of the eight. -/
theorem stopsAtLoss_slot {s : State} (down : s.ring.up = false) (v : Slot) :
    let t := (List.finRange 8).foldl stopAtLoss s
    (Moving s.views[v] → t.views[v].state = .held ∧ t.views[v].ctx.lastStop = .ringDown ∧
      t.views[v].frame = none ∧ t.views[v].timer = none ∧ t.views[v].ctx.cursor = s.views[v].ctx.cursor ∧
      (reports s s.views[v].ctx.owner = true → hasCause t.ports[s.views[v].ctx.owner].causes .viewStopped = true)) ∧
    (¬ Moving s.views[v] → t.views[v] = s.views[v]) := by
  intro t
  obtain ⟨before, after, split, earlier, later⟩ := finRange_split v
  have first := (worksDown_stopsAtLoss down before).1
  have view := stopsAtLoss_view_ne earlier s
  have stopped := first.trans (worksDown_stopAtLoss (first.down down) v)
  have rest := (worksDown_stopsAtLoss (stopped.down down) after).1
  have ends : t = after.foldl stopAtLoss (stopAtLoss (before.foldl stopAtLoss s) v) := by
    unfold t
    rw [split, List.foldl_append, List.foldl_cons]
  have last : t.views[v] = (stopAtLoss (before.foldl stopAtLoss s) v).views[v] := by
    rw [ends, stopsAtLoss_view_ne later]
  refine ⟨fun moving => ?_, fun still => ?_⟩
  · have stop := stopAtLoss_moving (view ▸ moving)
    rw [last, stop, stopView_view_eq, view]
    refine ⟨rfl, rfl, rfl, rfl, rfl, fun bound => ?_⟩
    rw [ends]
    refine (rest.ports _).causes _ ?_
    rw [stop, ← view]
    refine stopView_hasCause (first.down down) 0 rfl ?_
    rw [first.reports, view]
    exact bound
  · rw [last, stopAtLoss_still (view ▸ still), view]

/-- What SIGNAL_LOSS leaves, in either state of the ring. -/
theorem signalLoss_spec (s : State) : ∃ t, exec .signalLoss s = .next t ∧ t.ring.up = false ∧ t.ring.signal = false ∧
    t.ring.syncWaiting = false ∧ t.ring.forward = s.ring.forward ∧ SameJournal s t ∧ t.directory = s.directory ∧
    (s.ring.up = false → t = { s with ring := { s.ring with signal := false, syncWaiting := false } }) ∧
    (s.ring.up = true → t.ring.own = [] ∧ RingWordShown t ∧
      (∀ v : Slot, Moving s.views[v] → t.views[v].state = .held ∧ t.views[v].ctx.lastStop = .ringDown ∧
        t.views[v].frame = none ∧ t.views[v].timer = none ∧ t.views[v].ctx.cursor = s.views[v].ctx.cursor ∧
        (reports s s.views[v].ctx.owner = true → hasCause t.ports[s.views[v].ctx.owner].causes .viewStopped = true)) ∧
      (∀ v : Slot, ¬ Moving s.views[v] → t.views[v] = s.views[v]) ∧
      (∀ p : PortId, t.ports[p].fired = s.ports[p].fired)) := by
  cases up : s.ring.up with
  | false =>
    refine ⟨_, exec_signalLoss_down up, up, rfl, rfl, rfl, ?_, rfl, fun _ => rfl, by simp⟩
    exact ⟨rfl, rfl, rfl, rfl, rfl, rfl, rfl, rfl, rfl, rfl, rfl⟩
  | true =>
    have down : (ringLost s).ring.up = false := rfl
    obtain ⟨works, journal, directory⟩ := worksDown_stopsAtLoss down (List.finRange 8)
    have ring := works.ring
    have slots := stopsAtLoss_slot down
    refine ⟨_, exec_signalLoss_up up, by rw [ring]; rfl, by rw [ring]; rfl, by rw [ring]; rfl, by rw [ring]; rfl, journal,
      directory, by simp, fun _ => ⟨by rw [ring]; rfl, ?_, fun v => (slots v).1, fun v => (slots v).2,
        fun p => (works.ports p).fired⟩⟩
    exact works.ringWordShown journal.journal (writeRingWord_shown _)

/-! ### The sync packets (R166) -/

/-- The Ring Interface after it has sent a sync packet: a node whose number lies outside the ring sends none. -/
def Ring.synced (r : Ring) : Ring :=
  if r.node.val < r.size then { r with own := r.own ++ [.sync r.node 0], syncWaiting := true } else r

theorem sendSync_eq {s : State} (down : s.ring.up = false) :
    (if !s.ring.up && nodeInRing s then sendSync s else s) = { s with ring := s.ring.synced } := by
  unfold Ring.synced
  by_cases inside : s.ring.node.val < s.ring.size
  · rw [if_pos (by simpa [down, nodeInRing] using inside), if_pos inside]
    rfl
  · rw [if_neg (by simpa [down, nodeInRing] using inside), if_neg inside]

theorem exec_signalGained_new {s : State} (down : s.ring.up = false) (absent : s.ring.signal = false) :
    exec .signalGained s = .next { s with ring := Ring.synced { s.ring with signal := true } } :=
  congrArg Host.Outcome.next ((if_neg (by simp [absent])).trans
    (sendSync_eq (s := { s with ring := { s.ring with signal := true } }) down))

theorem exec_signalGained_again {s : State} (present : s.ring.signal = true) : exec .signalGained s = .next s :=
  congrArg Host.Outcome.next (if_pos present)

theorem exec_syncTimeout_waiting {s : State} (down : s.ring.up = false) (present : s.ring.signal = true)
    (waiting : s.ring.syncWaiting = true) : exec .syncTimeout s = .next { s with ring := s.ring.synced } := by
  rw [← sendSync_eq down]
  refine congrArg Host.Outcome.next ?_
  rw [present, waiting, Bool.and_true, Bool.and_true]

/-! ### Causes raised while the ring is UP (R162, R163) -/

theorem Port.fired_same {x : Port} (fired : x.fired = true) : x = { x with fired := true } := by
  rw [← fired]

/-- While the ring is UP the gate of a bound port comes to be FIRED. -/
theorem fireGate_up {s : State} {p : PortId} {n : Node} (up : s.ring.up = true) (bound : s.ports[p].bound = some n) :
    (fireGate s p).ports[p] = { s.ports[p] with fired := true } := by
  unfold fireGate
  rw [bound]
  cases fired : s.ports[p].fired with
  | false =>
    refine (congrArg (fun t : State => t.ports[p]) (if_pos (by simp [up]))).trans ?_
    dsimp only
    rw [writePortStatus_ports, State.setPort_get_self, State.sendNotice_ports]
  | true =>
    exact (congrArg (fun t : State => t.ports[p]) (if_neg (by simp))).trans (Port.fired_same fired)

/-- While the ring is UP a cause raised on a port that reports is present, and the gate is FIRED. -/
theorem raiseCause_up {s : State} {p : PortId} (c : Cause) (up : s.ring.up = true) (bound : reports s p = true) :
    (raiseCause s p c).ports[p] = { s.ports[p] with causes := s.ports[p].causes ||| c.mask, fired := true } := by
  obtain ⟨node, named⟩ := Option.isSome_iff_exists.1 (Bool.and_eq_true_iff.1 bound).1
  have view := State.setPort_get_self s p { s.ports[p] with causes := s.ports[p].causes ||| c.mask }
  rw [raiseCause, if_pos (by exact bound), fireGate_up (n := node) (by exact up), writePortStatus_ports, view]
  rw [writePortStatus_ports, view]
  exact named

/-- A port status record lies below the part status page. -/
theorem writePortStatus_page (s : State) (p : PortId) {a : Nat} (page : Config.partStatusAddr ≤ a) :
    (s.writePortStatus p).byteAt a = s.byteAt a :=
  writePortStatus_byteAt s p a (by
    have := p.isLt
    simp only [InBytes, Config.portStatusAddr, Config.portBase, Config.partStatusAddr] at *
    omega)

/-- A cause reaches no byte of the part status page. -/
theorem raiseCause_page (s : State) (p : PortId) (c : Cause) {a : Nat} (page : Config.partStatusAddr ≤ a) :
    (raiseCause s p c).byteAt a = s.byteAt a := by
  have gate : ∀ s : State, (fireGate s p).byteAt a = s.byteAt a := fun s => by
    unfold fireGate
    split
    · split
      · rw [writePortStatus_page _ p page, setPort_byteAt, sendNotice_byteAt]
      · rfl
    · rfl
  unfold raiseCause
  split
  · rw [gate, writePortStatus_page _ p page, setPort_byteAt]
  · rfl

/-! ### The return of the sync packet (R166, R168) -/

/-- The ports that report, in increasing number. -/
theorem boundPorts_eq (s : State) : boundPorts s = (List.finRange 8).filter fun p => reports s p := rfl

/-- A cause raised on several ports. -/
theorem raiseCauses_ne {q : PortId} {l : List PortId} (other : q ∉ l) (c : Cause) (s : State) :
    (l.foldl (fun s p => raiseCause s p c) s).ports[q] = s.ports[q] :=
  foldl_untouched (g := fun s : State => s.ports[q])
    (fun s p hp => (atPort_raiseCause s p c).2 q fun e => other (e ▸ hp)) s

theorem raiseCauses_up (l : List PortId) (c : Cause) (s : State) :
    (l.foldl (fun s p => raiseCause s p c) s).ring.up = s.ring.up :=
  foldl_untouched (g := fun s : State => s.ring.up) (fun s p _ => by rw [(atPort_raiseCause s p c).1]) s

theorem raiseCauses_page (l : List PortId) (c : Cause) (s : State) {a : Nat} (page : Config.partStatusAddr ≤ a) :
    (l.foldl (fun s p => raiseCause s p c) s).byteAt a = s.byteAt a :=
  foldl_untouched (g := fun s : State => s.byteAt a) (fun s p _ => raiseCause_page s p c page) s

theorem atPorts_raiseCauses (l : List PortId) (c : Cause) (s : State) :
    AtPorts s (l.foldl (fun s p => raiseCause s p c) s) := by
  induction l generalizing s with
  | nil => exact AtPorts.refl s
  | cons p l ih => exact (atPorts_raiseCause s p c).trans (ih _)

/-- A cause raised on every bound port while the ring is UP is present at each, whose gate is FIRED; the other ports are as
they were. -/
theorem raiseOnAll_port {s : State} (up : s.ring.up = true) (c : Cause) (p : PortId) : (raiseOnAll s c).ports[p] =
    if reports s p then { s.ports[p] with causes := s.ports[p].causes ||| c.mask, fired := true } else s.ports[p] := by
  unfold raiseOnAll
  rw [boundPorts_eq]
  split
  next bound =>
    obtain ⟨before, after, split, earlier, later⟩ := nodup_split ((List.nodup_finRange 8).filter _)
      (List.mem_filter.2 ⟨List.mem_finRange p, bound⟩)
    have port := raiseCauses_ne earlier c s
    rw [split, List.foldl_append, List.foldl_cons, raiseCauses_ne later, raiseCause_up c ((raiseCauses_up _ c s).trans up), port]
    unfold reports
    rw [port]
    exact bound
  next unbound => exact raiseCauses_ne (fun member => unbound (List.mem_filter.1 member).2) c s

/-- The part status page follows from the fields it shows. -/
theorem partStatusBytes_raiseOnAll {s : State} (up : s.ring.up = true) (c : Cause) :
    partStatusBytes (raiseOnAll s c) = partStatusBytes s := by
  have bindings : (raiseOnAll s c).ports.map bindingBytes = s.ports.map bindingBytes := Vector.ext fun i hi => by
    have port := raiseOnAll_port up c ⟨i, hi⟩
    simp only [Fin.getElem_fin] at port
    rw [Vector.getElem_map, Vector.getElem_map, port]
    split <;> rfl
  have rows := congrArg Vector.toList bindings
  rw [Vector.toList_map, Vector.toList_map] at rows
  have frame := (atPorts_raiseCauses (boundPorts s) c s).frame
  change raiseOnAll s c = _ at frame
  unfold partStatusBytes checkpointCount
  rw [List.flatMap_def, List.flatMap_def, rows, frame]

/-- The state in which the ring is UP, before RING_RESTORED is raised. -/
def ringRestored (s : State) : State :=
  ({ s with ring := { s.ring with up := true, syncWaiting := false } } : State).writeRingWord.writePartPage

theorem exec_sync_returned {s : State} (down : s.ring.up = false) (inside : s.ring.node.val < s.ring.size) (hops : Nat) :
    exec (.packetArrival (.sync s.ring.node hops)) s = .next (raiseOnAll (ringRestored s) .ringRestored) :=
  congrArg Host.Outcome.next ((if_pos rfl).trans (if_pos (by simpa [down, nodeInRing] using inside)))

theorem exec_sync_outside {s : State} (outside : s.ring.size ≤ s.ring.node.val) (hops : Nat) :
    exec (.packetArrival (.sync s.ring.node hops)) s = .next s :=
  congrArg Host.Outcome.next ((if_pos rfl).trans (if_neg (by simp [nodeInRing, outside])))

/-- Settles O57: the stops at ring loss, the sync packets sent, and the causes raised when the ring returns. -/
theorem ringGoesDownAndUp : Obligations.RingGoesDownAndUp := by
  refine ⟨signalLoss_spec, fun s down => ?_, fun s hops down => ⟨fun outside => exec_sync_outside outside hops,
    fun inside => ?_⟩⟩
  · intro sends
    exact ⟨exec_signalGained_new down, exec_signalGained_again, exec_syncTimeout_waiting down⟩
  have up : (ringRestored s).ring.up = true := rfl
  have raised := atPorts_raiseCauses (boundPorts (ringRestored s)) .ringRestored (ringRestored s)
  have frame := raised.frame
  have port := raiseOnAll_port up .ringRestored
  refine ⟨_, exec_sync_returned down inside hops, (raiseCauses_up _ _ _).trans up, ?_, raised.views, ?_, ?_,
    fun p bound => (port p).trans (if_pos bound), fun p unbound => (port p).trans (if_neg (ne_true_of_eq_false unbound))⟩
  · unfold raiseOnAll
    rw [frame]
    rfl
  · unfold raiseOnAll
    rw [frame]
    exact ⟨rfl, rfl, rfl, rfl, rfl, rfl, rfl, rfl, rfl, rfl, rfl⟩
  · rw [partStatusBytes_raiseOnAll up]
    exact stands_of_byteAt _ _ _ _ (fun x hx => raiseCauses_page _ _ _ hx.1) (partWrite_stands _ _ _)

end Sys2Proof.Machine
end

section
/-! PROOFS. PUBLISH (R132): the view with its new setting, and the writes of its image and of its status record in their
order. -/

namespace Sys2Proof.Machine

/-- A view that PUBLISH has switched on or off: switched on, its counter has moved on by a whole revision. -/
def View.publishing (w : View) (on : Bool) : View := { w with ctx := { w.ctx with
  published := on, counter := if on then w.ctx.counter + 2 else w.ctx.counter } }

/-- The writes of PUBLISH: the whole image between the odd and the even counter when it switches on, then the status
record. -/
def publishWrites (s : State) (v : Slot) (on : Bool) : List (Nat × List Byte) :=
  (if on then wholeImageWrites v s.views[v].ctx s.dram.viewImages[v] else []) ++
    [statusWrite v (s.views[v].publishing on)]

/-- The state that PUBLISH leaves, before its completion. -/
def publishSwitched (s : State) (v : Slot) (on : Bool) : State :=
  (s.setView v (s.views[v].publishing on)).wrote (publishWrites s v on)

theorem publishSwitched_view (s : State) (v : Slot) (on : Bool) :
    (publishSwitched s v on).views[v] = s.views[v].publishing on := State.setView_get_self s v _

/-- A view switched on or off, its image when it is switched on, and its status record. -/
theorem publishSwitched_eq (s : State) (v : Slot) (on : Bool) :
    let t := s.setView v { s.views[v] with ctx := { s.views[v].ctx with published := on } }
    (if on then writeWholeImage t v else t).writeViewStatus v = publishSwitched s v on := by
  intro t
  have view : t.views[v] = { s.views[v] with ctx := { s.views[v].ctx with published := on } } :=
    State.setView_get_self s v _
  unfold publishSwitched publishWrites
  cases on with
  | false =>
    rw [if_neg Bool.false_ne_true, if_neg Bool.false_ne_true, writeViewStatus_eq, view]
    rfl
  | true =>
    rw [if_pos rfl, if_pos rfl, writeWholeImage_eq, writeViewStatus_eq, wrote_wrote, wrote_views, view,
      State.setView_get_self, setView_setView]
    rfl

theorem exec_publish {s : State} {n : Nat} {p : PortId} {d : Descriptor} {v : Slot} (taken : Taken s n .publish p d)
    (names : NamesView s p d v) : exec (.publish n) s = .next (complete (publishSwitched s v (d.field 8 1 != 0)) n .ok
      (s.views[v].publishing (d.field 8 1 != 0)).ctx.counter.toNat 0 0) := by
  refine (congrArg Host.Outcome.next (withView_taken taken names _)).trans ?_
  dsimp only [Descriptor.select]
  rw [publishSwitched_eq, publishSwitched_view]

/-- Every write of PUBLISH lies in the view's status record, but for that of the image when it switches on. -/
theorem publishWrites_within {s : State} {v : Slot} {on : Bool} {w : Nat × List Byte} (hw : w ∈ publishWrites s v on) :
    (w.1 = Config.viewStatusAddr v ∧ w.2.length ≤ 64) ∨
      (on = true ∧ w = (Config.imageAddr v, imageBytes s.dram.viewImages[v] 0 32768)) := by
  have counter : ∀ value, (counterWrite v value).2.length ≤ 64 := fun value => by simp [counterWrite]
  rcases List.mem_append.1 hw with image | status
  · cases on with
    | false => exact absurd image List.not_mem_nil
    | true =>
      simp only [if_true, wholeImageWrites, List.mem_cons, List.not_mem_nil, or_false] at image
      rcases image with rfl | rfl | rfl
      · exact Or.inl ⟨rfl, counter _⟩
      · exact Or.inr ⟨rfl, rfl⟩
      · exact Or.inl ⟨rfl, counter _⟩
  · rw [List.mem_singleton.1 status]
    exact Or.inl ⟨rfl, (viewStatusBytes_length _).le⟩

/-- The whole image stands in the slot's area: the counter and the status record behind it lie below. -/
theorem publishSwitched_image (s : State) (v : Slot) :
    Stands (publishSwitched s v true) (Config.imageAddr v) (imageBytes s.dram.viewImages[v] 0 32768) := by
  refine wrote_stands [counterWrite v (s.views[v].ctx.counter + 1)]
    (after := [counterWrite v (s.views[v].ctx.counter + 2), statusWrite v (s.views[v].publishing true)])
    fun w hw x hx inside => ?_
  have low : w.1 + w.2.length ≤ 0xA00000 := by
    rcases List.mem_cons.1 hw with rfl | status
    · exact counterWrite_below_image v _ _ (List.mem_singleton.2 rfl)
    · exact List.mem_singleton.1 status ▸ (statusWrite_below v _).trans (by decide)
  have high := (imageAddr_bounds v).trans hx.1
  exact absurd inside.2 (by omega)

theorem publishSwitched_byteAt {s : State} {v : Slot} {on : Bool} {a : Nat}
    (status : ¬ InBytes a (Config.viewStatusAddr v) 64) (image : on = false ∨ ¬ InBytes a (Config.imageAddr v) 32768) :
    (publishSwitched s v on).byteAt a = s.byteAt a := by
  refine wrote_byteAt fun w hw inside => ?_
  rcases publishWrites_within hw with ⟨start, short⟩ | ⟨switched, rfl⟩
  · rw [start] at inside
    exact status ⟨inside.1, inside.2.trans_le (Nat.add_le_add_left short _)⟩
  · dsimp only at inside
    rw [imageBytes_length] at inside
    exact image.elim (fun off => absurd (switched.symm.trans off) (by decide)) fun outside => outside inside

/-- Settles O36: PUBLISH is one write of the view, the writes in their order, and a completion. -/
theorem publishWritesImage : Obligations.PublishWritesImage := by
  intro s n p d v taken names w on counter
  refine ⟨publishSwitched s v on, rfl, fun switched => ?_, fun a status image => publishSwitched_byteAt status image, ?_,
    fun up => ?_, taken.completes rfl (exec_publish taken names)⟩
  · rw [switched]
    exact publishSwitched_image s v
  · rw [publishSwitched_view]
    exact wrote_status_stands _ _ v _
  · rw [publishSwitched_view]
    refine (wrote_own (by exact up) _).trans ?_
    unfold publishWrites
    cases on <;> rfl

end Sys2Proof.Machine
end

section
/-! PROOFS. The pages that nodes write (R154, R175), which no work of the part reaches, and a port's context changed with
its status record (R139, R162, R163). -/

namespace Sys2Proof.Machine

/-! ### The bytes of the stations -/

/-- Address `a` lies in the half of a port region that a node writes (R154). -/
def StationByte (a : Nat) : Prop := a < 0x800000 ∧ a % 0x100000 < 0x80000

/-- The bytes that nodes write stand in `t` as in `s`. -/
def KeepsStations (s t : State) : Prop := ∀ a, StationByte a → t.byteAt a = s.byteAt a

theorem KeepsStations.refl (s : State) : KeepsStations s s := fun _ _ => rfl

theorem KeepsStations.trans {s t u : State} (h : KeepsStations s t) (k : KeepsStations t u) : KeepsStations s u :=
  fun a ha => (k a ha).trans (h a ha)

/-- What stands in the pages of nodes stands on. -/
theorem KeepsStations.stands {s t : State} (h : KeepsStations s t) {a : Nat} {bs : List Byte}
    (station : ∀ x, InBytes x a bs.length → StationByte x) (stands : Stands s a bs) : Stands t a bs :=
  stands_of_byteAt s t a bs (fun x hx => h x (station x hx)) stands

theorem consumerAddr_station (p : PortId) {x : Nat} (hx : InBytes x (Config.consumerAddr p) 8) : StationByte x := by
  have := p.isLt
  simp only [InBytes, StationByte, Config.consumerAddr, Config.portBase] at *
  omega

theorem InBytes.widen {x a m n : Nat} (h : InBytes x a m) (le : m ≤ n) : InBytes x a n :=
  ⟨h.1, h.2.trans_le (Nat.add_le_add_left le a)⟩

theorem KeepsStations.unconsumed {s t : State} {p : PortId} (h : KeepsStations s t)
    (produced : t.ports[p].produced = s.ports[p].produced) : unconsumed t p = unconsumed s p := by
  unfold Machine.unconsumed
  rw [produced, indexAt_of_byteAt fun x hx => h x (consumerAddr_station p (hx.widen (by decide)))]

/-- A record of a port shows its context and its completion consumer word. -/
theorem KeepsStations.portStatusBytes {s t : State} {p : PortId} (h : KeepsStations s t) (port : t.ports[p] = s.ports[p]) :
    portStatusBytes t p = portStatusBytes s p := by
  have free : freeCompletions t p = freeCompletions s p := by
    unfold freeCompletions
    rw [h.unconsumed (congrArg _ port), port]
  unfold Machine.portStatusBytes fetchState
  rw [port, free]

/-- Writes above the port regions. -/
theorem keepsStations_wrote (s : State) {ws : List (Nat × List Byte)} (above : AbovePorts ws) :
    KeepsStations s (s.wrote ws) :=
  fun a ha => wrote_byteAt fun w hw inside => by
    have := above w hw
    have := ha.1
    have := inside.1
    omega

theorem portStatusAddr_not_station {p : PortId} {a : Nat} (ha : StationByte a) :
    ¬ InBytes a (Config.portStatusAddr p) 24 := by
  have := p.isLt
  simp only [StationByte, InBytes, Config.portStatusAddr, Config.portBase] at *
  omega

/-! ### A port's context with its status record -/

/-- `t` is `s` with port context `x` at port `p`, its status record rewritten, and the packets held for sending. -/
structure PortBecomes (s t : State) (p : PortId) (x : Port) : Prop where
  frame : t = { s with
    ring := { s.ring with replica := t.ring.replica, own := t.ring.own }, ports := s.ports.set p x }
  shown : Stands t (Config.portStatusAddr p) (portStatusBytes t p)
  bytes : ∀ a, ¬ InBytes a (Config.portStatusAddr p) 24 → t.byteAt a = s.byteAt a

theorem PortBecomes.port {s t : State} {p : PortId} {x : Port} (h : PortBecomes s t p x) : t.ports[p] = x := by
  rw [h.frame]
  exact State.setPort_get_self s p x

theorem PortBecomes.keepsStations {s t : State} {p : PortId} {x : Port} (h : PortBecomes s t p x) : KeepsStations s t :=
  fun a ha => h.bytes a (portStatusAddr_not_station ha)

theorem PortBecomes.up {s t : State} {p : PortId} {x : Port} (h : PortBecomes s t p x) : t.ring.up = s.ring.up := by
  rw [h.frame]

theorem PortBecomes.trans {s t u : State} {p : PortId} {x y : Port} (h : PortBecomes s t p x) (k : PortBecomes t u p y) :
    PortBecomes s u p y where
  frame := by
    rw [k.frame, h.frame]
    simp
  shown := k.shown
  bytes a ha := (k.bytes a ha).trans (h.bytes a ha)

theorem PortBecomes.sendNotice {s t : State} {p : PortId} {x : Port} (h : PortBecomes s t p x) (n : Node) (k : NoticeType)
    (datum : BitVec 32) : PortBecomes s (t.sendNotice n k datum) p x where
  frame := by
    rw [sendNotice_eq, h.frame]
  shown := by
    have stations : KeepsStations t (t.sendNotice n k datum) := fun a _ => sendNotice_byteAt _ _ _ _ a
    rw [stations.portStatusBytes (by rw [State.sendNotice_ports])]
    exact stands_of_byteAt _ _ _ _ (fun a _ => sendNotice_byteAt _ _ _ _ a) h.shown
  bytes a ha := (sendNotice_byteAt _ _ _ _ a).trans (h.bytes a ha)

theorem keepsStations_writePortStatus (s : State) (p : PortId) : KeepsStations s (s.writePortStatus p) :=
  fun _ ha => writePortStatus_byteAt s p _ (portStatusAddr_not_station ha)

/-- A status record just written shows its port. -/
theorem writePortStatus_shown (s : State) (p : PortId) :
    Stands (s.writePortStatus p) (Config.portStatusAddr p) (portStatusBytes (s.writePortStatus p) p) := by
  rw [(keepsStations_writePortStatus s p).portStatusBytes rfl]
  exact partWrite_stands _ _ _

theorem portBecomes_writePortStatus (s : State) (p : PortId) (x : Port) :
    PortBecomes s ((s.setPort p x).writePortStatus p) p x :=
  ⟨rfl, writePortStatus_shown _ p, fun a ha => writePortStatus_byteAt _ p a ha⟩

/-- A record rewritten where it has changed. -/
theorem portBecomes_refreshPort (s : State) (p : PortId) (x : Port) :
    PortBecomes s (refreshPort (s.setPort p x) p) p x := by
  unfold refreshPort
  split
  next shown =>
    refine ⟨rfl, ?_, fun a _ => rfl⟩
    unfold Stands
    rw [portStatusBytes_length]
    exact shown
  next => exact portBecomes_writePortStatus s p x

theorem PortBecomes.refreshPort {s t : State} {p : PortId} {x : Port} (h : PortBecomes s t p x) :
    PortBecomes s (refreshPort t p) p x := by
  have same := portBecomes_refreshPort t p x
  rw [← h.port, State.setPort_same, h.port] at same
  exact h.trans same

/-! ### Causes (R162, R163) -/

/-- The gate of a bound port acts while the ring is UP. -/
theorem PortBecomes.fireGate {s t : State} {p : PortId} {x : Port} (h : PortBecomes s t p x)
    (bound : x.bound.isSome = true) : PortBecomes s (fireGate t p) p { x with fired := x.fired || s.ring.up } := by
  unfold Machine.fireGate
  split
  next node _ =>
    dsimp only
    rw [h.up, State.sendNotice_ports, h.port]
    split
    next acts =>
      obtain ⟨up, -⟩ := Bool.and_eq_true_iff.1 acts
      rw [up, Bool.or_true]
      exact (h.sendNotice node _ _).trans (portBecomes_writePortStatus _ p _)
    next idle =>
      have same : (x.fired || s.ring.up) = x.fired := by
        revert idle
        cases s.ring.up <;> cases x.fired <;> simp
      rw [same]
      exact h
  next unbound =>
    rw [h.port] at unbound
    rw [unbound] at bound
    exact absurd bound (by decide)

/-- A cause raised on a port that reports: it is present, and the gate is FIRED while the ring is UP. -/
theorem raiseCause_becomes {s : State} {p : PortId} (bound : reports s p = true) (c : Cause) :
    PortBecomes s (raiseCause s p c) p
      { s.ports[p] with causes := s.ports[p].causes ||| c.mask, fired := s.ports[p].fired || s.ring.up } := by
  unfold raiseCause
  rw [if_pos (by exact bound)]
  exact (portBecomes_writePortStatus s p _).fireGate (Bool.and_eq_true_iff.1 bound).1

theorem raiseCause_unbound {s : State} {p : PortId} (unbound : reports s p = false) (c : Cause) : raiseCause s p c = s :=
  if_neg (ne_true_of_eq_false unbound)

theorem raiseCause_byteAt (s : State) (p : PortId) (c : Cause) {a : Nat}
    (outside : ¬ InBytes a (Config.portStatusAddr p) 24) : (raiseCause s p c).byteAt a = s.byteAt a := by
  cases bound : reports s p with
  | false => rw [raiseCause_unbound bound]
  | true => exact (raiseCause_becomes bound c).bytes a outside

theorem keepsStations_raiseCause (s : State) (p : PortId) (c : Cause) : KeepsStations s (raiseCause s p c) :=
  fun _ ha => raiseCause_byteAt s p c (portStatusAddr_not_station ha)

/-- A record that shows its port shows it after a cause too. -/
theorem raiseCause_shown {s : State} {p : PortId} (c : Cause)
    (shown : Stands s (Config.portStatusAddr p) (portStatusBytes s p)) :
    Stands (raiseCause s p c) (Config.portStatusAddr p) (portStatusBytes (raiseCause s p c) p) := by
  cases bound : reports s p with
  | false => rwa [raiseCause_unbound bound]
  | true => exact (raiseCause_becomes bound c).shown

/-- Causes present stay present where another is raised. -/
theorem raiseCause_keepsCauses {s : State} {q : PortId} {c : Cause} (present : hasCause s.ports[q].causes c = true)
    (p : PortId) (c' : Cause) : hasCause (raiseCause s p c').ports[q].causes c = true := by
  by_cases here : q = p
  · subst here
    cases bound : reports s q with
    | false => rwa [raiseCause_unbound bound]
    | true =>
      rw [(raiseCause_becomes bound c').port]
      exact hasCause_or present _
  · rwa [(atPort_raiseCause s p c').2 q here]

/-- The end of a command leaves every cause set. -/
theorem complete_causes (s : State) (n : Nat) (r : Result) (v1 v2 v3 : Nat) (q : PortId) :
    (complete s n r v1 v2 v3).ports[q].causes = s.ports[q].causes := by
  cases found : findCommand s n with
  | none => unfold complete; rw [found]
  | some x =>
    obtain ⟨-, -, others, own, -⟩ := complete_spec s n r v1 v2 v3 x.1 x.2 found
    by_cases here : q = x.1
    · rw [here, own]
    · rw [others q here]

/-! ### Evaluations of a distance (R121, R144) -/

theorem evaluateCompletions_of_far {s : State} {p : PortId} (far : 256 < unconsumed s p) :
    evaluateCompletions s p = raiseCause s p .ringIndex := if_pos far

theorem evaluateCompletions_of_near {s : State} {p : PortId} (near : unconsumed s p ≤ 256) : evaluateCompletions s p = s :=
  if_neg near.not_gt

theorem evaluateRoom_of_far {s : State} {v : Slot} (far : 4096 < deltaDistance s v) :
    evaluateRoom s v = raiseCause s s.views[v].ctx.owner .ringIndex := if_pos far

theorem deltaFree_of_far {s : State} {v : Slot} (far : 4096 < deltaDistance s v) : deltaFree s v = 0 := if_pos far

theorem keepsStations_evaluateCompletions (s : State) (p : PortId) : KeepsStations s (evaluateCompletions s p) := by
  unfold evaluateCompletions
  split
  · exact keepsStations_raiseCause s p _
  · exact KeepsStations.refl s

theorem keepsStations_evaluateRoom (s : State) (v : Slot) : KeepsStations s (evaluateRoom s v) := by
  unfold evaluateRoom
  split
  · exact keepsStations_raiseCause s _ _
  · exact KeepsStations.refl s

/-! ### View work keeps the stations' bytes -/

/-- The end of a command writes no byte of a node. -/
theorem keepsStations_complete (s : State) (n : Nat) (r : Result) (v1 v2 v3 : Nat) :
    KeepsStations s (complete s n r v1 v2 v3) := by
  cases found : findCommand s n with
  | none =>
    unfold complete
    rw [found]
    exact KeepsStations.refl s
  | some x =>
    obtain ⟨-, -, -, -, bytes⟩ := complete_spec s n r v1 v2 v3 x.1 x.2 found
    refine fun a ha => bytes a ?_
    have := x.1.isLt
    have index := Nat.mod_lt s.ports[x.1].produced.toNat (show 0 < Config.ringEntries by decide)
    simp only [reportByte, StationByte, InBytes, Config.completionEntry, Config.portStatusAddr, Config.partStatusAddr,
      Config.portBase, Config.ringEntries] at *
    omega

theorem keepsStations_endStep (s : State) (v : Slot) (cause : StopCause) : KeepsStations s (endStep s v cause) := by
  cases step : s.views[v].step with
  | none =>
    rw [endStep_of_none step]
    exact KeepsStations.refl s
  | some st =>
    rw [endStep_of_some step]
    exact fun a ha => keepsStations_complete _ _ _ _ _ _ a ha

theorem keepsStations_stopView (s : State) (v : Slot) (cause : StopCause) (device : Nat) :
    KeepsStations s (stopView s v cause device) := by
  have marked : KeepsStations s (stopMarked s v cause device) := by
    rw [stopMarked_eq]
    exact fun a ha => (keepsStations_wrote _ (abovePorts_mark _ v _) a ha).trans
      (keepsStations_evaluateRoom (stopHeld s v cause device) v a ha)
  have raised : KeepsStations s (stopRaised s v cause device) := by
    unfold stopRaised
    split
    · exact marked.trans (keepsStations_raiseCause _ _ _)
    · exact marked
  rw [stopView_eq]
  exact raised.trans (keepsStations_endStep _ v cause)

theorem keepsStations_formFrame (s : State) (v : Slot) : KeepsStations s (formFrame s v) := by
  have begun : KeepsStations s (beginFrame s v) := fun _ _ => rfl
  unfold formFrame
  dsimp only
  split
  · exact KeepsStations.refl s
  · split
    · split
      · exact begun
      · exact keepsStations_stopView s v _ _
    · split
      · exact begun
      · split
        · exact keepsStations_stopView s v _ _
        · rw [setView_writeViewStatus]
          exact fun a ha => keepsStations_wrote _ (abovePorts_status v _) a ha

/-- The publication of a frame, with the stop or the next frame behind it, writes no byte of a node. -/
theorem keepsStations_applyFrame (s : State) (v : Slot) (f : Frame) : KeepsStations s (applyFrame s v f) := by
  have published : KeepsStations s (publishedState s v f) :=
    fun a ha => keepsStations_wrote _ (abovePorts_published s v f) a ha
  rw [applyFrame_eq]
  cases stopAfterFrame (publishedView s v f) (publishedEntries s v f) with
  | none => exact published.trans (keepsStations_formFrame _ v)
  | some x => exact published.trans (keepsStations_stopView _ v x.1 x.2)

theorem keepsStations_retryStalled (s : State) (v : Slot) : KeepsStations s (retryStalled s v) := by
  have room := keepsStations_evaluateRoom s v
  unfold retryStalled
  split
  next f _ =>
    dsimp only
    split
    · exact room.trans (keepsStations_applyFrame _ v f)
    · exact room
  next => exact KeepsStations.refl s

end Sys2Proof.Machine
end

section
/-! PROOFS. Ring writes: the checks and the application (R154, R157), and what each watched word is told as (R122, R129,
R143, R144). -/

namespace Sys2Proof.Machine

/-! ### The pages of a node (R154) -/

theorem pageOwner_station {s : State} {n : Node} {a : Nat} (owned : pageOwner s a = .node n) : StationByte a := by
  unfold pageOwner at owned
  split at owned
  · cases owned
  · split at owned
    · cases owned
    · exact ⟨by omega, by omega⟩

theorem pageOwner_of_bound {s : State} {p : PortId} {n : Node} {a : Nat} (bound : s.ports[p].bound = some n)
    (attached : s.ports[p].detaching = false) (base : Config.portBase p ≤ a) (half : a < Config.portBase p + 0x80000) :
    pageOwner s a = .node n := by
  have := p.isLt
  unfold Config.portBase at base half
  have region : Fin.ofNat 8 (a / 0x100000) = p := Fin.ext (by rw [Fin.val_ofNat]; omega)
  subst region
  unfold pageOwner
  rw [if_neg (by omega), if_neg (by omega)]
  dsimp only
  rw [attached, bound]
  rfl

theorem writeAllowed_iff {s : State} {n : Node} {a len : Nat} : writeAllowed s n a len = true ↔
    a % 8 = 0 ∧ len % 8 = 0 ∧ 8 ≤ len ∧ len ≤ 256 ∧ a + len ≤ 16777216 ∧ pageOwner s a = .node n ∧
      pageOwner s (a + len - 1) = .node n := by
  simp only [writeAllowed, Bool.and_eq_true, beq_iff_eq, decide_eq_true_eq, and_assoc]
  rfl

/-- A write that passes the checks covers bytes of its sender alone. -/
theorem writeAllowed_station {s : State} {n : Node} {a len x : Nat} (allowed : writeAllowed s n a len = true)
    (hx : InBytes x a len) : StationByte x := by
  obtain ⟨-, -, -, short, -, first, last⟩ := writeAllowed_iff.1 allowed
  have low := pageOwner_station first
  have high := pageOwner_station last
  simp only [InBytes, StationByte] at *
  omega

/-! ### The write (R157) -/

/-- `s` with a ring write forwarded. -/
def State.writeForwarded (s : State) (n : Node) (a : Nat) (data : List Byte) (hops : Nat) : State :=
  { s with ring := { s.ring with forward := s.ring.forward ++ [.write n a data (hops + 1)] } }

/-- `s` with the bytes of a ring write applied, before its words are told to their blocks. -/
def State.writeApplied (s : State) (a : Nat) (data : List Byte) : State :=
  { s with ring := { s.ring with replica := replicaWrite s.ring.replica a data } }

theorem exec_write_arrives {s : State} {n : Node} {hops : Nat} (up : s.ring.up = true) (foreign : n ≠ s.ring.node)
    (travels : hops < s.ring.size - 1) (a : Nat) (data : List Byte) :
    exec (.packetArrival (.write n a data hops)) s = .next (ringWrite (s.writeForwarded n a data hops) n a data) :=
  congrArg Host.Outcome.next ((if_neg foreign).trans ((if_neg travels.not_ge).trans (if_pos up)))

theorem ringWrite_allowed {s : State} {n : Node} {a : Nat} {data : List Byte}
    (allowed : writeAllowed s n a data.length = true) : ringWrite s n a data =
      ((List.range (data.length / 8)).map fun i => a + 8 * i).foldl wordWritten (s.writeApplied a data) :=
  (if_pos allowed).trans (List.foldl_map ..).symm

theorem writeApplied_stands (s : State) (a : Nat) (data : List Byte) : Stands (s.writeApplied a data) a data :=
  Sparse.read_setRange_self _ _ _ _

theorem writeApplied_byteAt (s : State) {a x : Nat} {data : List Byte} (outside : ¬ InBytes x a data.length) :
    (s.writeApplied a data).byteAt x = s.byteAt x := Sparse.get_setRange_outside _ _ _ _ _ outside

/-- A write of one word of a port's control page by the port's own node. -/
theorem ringWrite_word {s : State} {p : PortId} {n : Node} {a : Nat} {data : List Byte} (bound : s.ports[p].bound = some n)
    (attached : s.ports[p].detaching = false) (word : data.length = 8) (aligned : a % 8 = 0) (base : Config.portBase p ≤ a)
    (half : a + 8 ≤ Config.portBase p + 0x80000) : ringWrite s n a data = wordWritten (s.writeApplied a data) a := by
  have := p.isLt
  have space : Config.portBase p + 0x80000 ≤ 16777216 := by
    unfold Config.portBase
    omega
  rw [ringWrite_allowed, word]
  · rfl
  · rw [word]
    exact writeAllowed_iff.2 ⟨aligned, rfl, le_rfl, by decide, half.trans space,
      pageOwner_of_bound bound attached base (by omega), pageOwner_of_bound bound attached (by omega) (by omega)⟩

/-! ### The watched words -/

/-- A word's offset in its port's region says whose it is. -/
theorem wordWritten_at {s : State} {p : PortId} {a o : Nat} (region : regionPort a = p) (offset : a % 0x100000 = o) :
    wordWritten s a = if o = 0x2000 then (if s.ports[p].halted then freshReading s p else s)
      else if o = 0x2008 then refreshPort (evaluateCompletions s p) p
      else if 0x2010 ≤ o ∧ o < 0x2050 then deltaConsumerWritten s p (Fin.ofNat 8 ((o - 0x2010) / 8)) else s := by
  subst region offset
  rfl

theorem wordWritten_unwatched {s : State} {a : Nat} (beside : a % 1048576 < 0x2000 ∨ 0x2050 ≤ a % 1048576) :
    wordWritten s a = s := by
  rw [wordWritten_at rfl rfl, if_neg (by omega), if_neg (by omega), if_neg (by omega)]

theorem regionPort_add {p : PortId} {o : Nat} (inside : o < 0x100000) : regionPort (Config.portBase p + o) = p := by
  have := p.isLt
  unfold Config.portBase
  exact Fin.ext (by rw [regionPort, Fin.val_ofNat]; omega)

theorem portBase_add_mod {p : PortId} {o : Nat} (inside : o < 0x100000) : (Config.portBase p + o) % 0x100000 = o := by
  unfold Config.portBase
  omega

theorem wordWritten_producer (s : State) (p : PortId) : wordWritten s (Config.producerAddr p) =
    if s.ports[p].halted then freshReading s p else s :=
  wordWritten_at (regionPort_add (by decide)) (portBase_add_mod (by decide))

theorem wordWritten_consumer (s : State) (p : PortId) : wordWritten s (Config.consumerAddr p) =
    refreshPort (evaluateCompletions s p) p :=
  wordWritten_at (regionPort_add (by decide)) (portBase_add_mod (by decide))

theorem wordWritten_deltaConsumer (s : State) (p : PortId) (v : Slot) : wordWritten s (Config.deltaConsumerAddr p v) =
    deltaConsumerWritten s p v := by
  have := v.isLt
  have slot : Fin.ofNat 8 ((0x2010 + 8 * v.val - 0x2010) / 8) = v := Fin.ext (by rw [Fin.val_ofNat]; omega)
  rw [Config.deltaConsumerAddr, Nat.add_assoc, wordWritten_at (regionPort_add (by omega)) (portBase_add_mod (by omega)),
    if_neg (by omega), if_neg (by omega), if_pos (by omega), slot]

/-! ### The command producer word (R143) -/

/-- A fresh reading with a sane index ends the halt. -/
theorem freshReading_near {s : State} {p : PortId} (near : producerDistance s p ≤ 256) :
    PortBecomes s (freshReading s p) p { s.ports[p] with halted := false, look := true } := by
  rw [freshReading, if_neg (by exact near.not_gt)]
  exact portBecomes_refreshPort s p _

/-- A fresh reading with another index halts the port again and raises RING_INDEX. -/
theorem freshReading_far {s : State} {p : PortId} (far : 256 < producerDistance s p) (bound : reports s p = true) :
    PortBecomes s (freshReading s p) p { s.ports[p] with
      halted := true, haltValue := producerWord s p, look := false
      causes := s.ports[p].causes ||| 64, fired := s.ports[p].fired || s.ring.up } := by
  have halts := portBecomes_writePortStatus s p
    { s.ports[p] with halted := true, haltValue := producerWord s p, look := false }
  rw [freshReading, if_pos (by exact far)]
  refine halts.trans ?_
  have raised := raiseCause_becomes (p := p) (s := (s.setPort p { s.ports[p] with
    halted := true, haltValue := producerWord s p, look := false }).writePortStatus p)
    (by rw [reports, halts.port]; exact bound) .ringIndex
  rw [halts.port] at raised
  exact raised

/-! ### The completion consumer word (R144) -/

theorem consumerWritten_near {s : State} {p : PortId} (near : unconsumed s p ≤ 256) :
    PortBecomes s (wordWritten s (Config.consumerAddr p)) p s.ports[p] := by
  have same := portBecomes_refreshPort s p s.ports[p]
  rw [State.setPort_same] at same
  rwa [wordWritten_consumer, evaluateCompletions_of_near near]

theorem consumerWritten_far {s : State} {p : PortId} (far : 256 < unconsumed s p) (bound : reports s p = true) :
    PortBecomes s (wordWritten s (Config.consumerAddr p)) p
      { s.ports[p] with causes := s.ports[p].causes ||| 64, fired := s.ports[p].fired || s.ring.up } := by
  rw [wordWritten_consumer, evaluateCompletions_of_far far]
  exact (raiseCause_becomes bound .ringIndex).refreshPort

/-! ### The delta consumer words (R122, R129) -/

theorem ownsView_iff {s : State} {p : PortId} {v : Slot} :
    ownsView s p v = true ↔ s.views[v].state ≠ .free ∧ s.views[v].ctx.owner = p := by
  simp [ownsView]

section
variable {s : State} {p : PortId} {v : Slot}

theorem deltaConsumerWritten_unowned (unowned : ¬ (s.views[v].state ≠ .free ∧ s.views[v].ctx.owner = p)) :
    deltaConsumerWritten s p v = s := if_neg (mt ownsView_iff.1 unowned)

theorem deltaConsumerWritten_evaluates (live : s.views[v].state ≠ .free) (owner : s.views[v].ctx.owner = p)
    (flowing : s.views[v].state ≠ .stalled) : deltaConsumerWritten s p v = evaluateRoom s v :=
  (if_pos (ownsView_iff.2 ⟨live, owner⟩)).trans (if_neg flowing)

theorem deltaConsumerWritten_retries (owner : s.views[v].ctx.owner = p) (stalled : s.views[v].state = .stalled) :
    deltaConsumerWritten s p v = retryStalled s v :=
  (if_pos (ownsView_iff.2 ⟨by rw [stalled]; decide, owner⟩)).trans (if_pos stalled)

/-- A retried room test: the evaluation of the room, and the frame's publication where its records fit. -/
theorem retryStalled_eq {f : Frame} (held : s.views[v].frame = some f) : retryStalled s v =
    if (frameEntries s s.views[v].ctx f.count).countP (passesFilter s s.views[v].ctx) ≤ deltaFree s v
    then applyFrame (evaluateRoom s v) v f else evaluateRoom s v := by
  have records : frameRecords (evaluateRoom s v) (evaluateRoom s v).views[v].ctx f =
      (frameEntries s s.views[v].ctx f.count).countP (passesFilter s s.views[v].ctx) := by
    rw [(atPorts_evaluateRoom s v).frame]
    rfl
  unfold retryStalled
  rw [held]
  dsimp only
  rw [records]

/-- RING_INDEX changes nothing that a frame's records are counted from. -/
theorem retryStalled_far {f : Frame} (far : 4096 < deltaDistance s v)
    (held : s.views[v].frame = some f) : retryStalled s v =
      if (frameEntries s s.views[v].ctx f.count).countP (passesFilter s s.views[v].ctx) = 0
      then applyFrame (raiseCause s s.views[v].ctx.owner .ringIndex) v f
      else raiseCause s s.views[v].ctx.owner .ringIndex := by
  rw [retryStalled_eq held, deltaFree_of_far far, evaluateRoom_of_far far]
  simp only [Nat.le_zero]

end

end Sys2Proof.Machine
end

section
/-! PROOFS. RING_INDEX (R121, R144, R165): at a dispatch, at ring writes of the two consumer words, at CLEAR_CAUSES, and at
the evaluations of a delta ring. -/

namespace Sys2Proof.Machine

/-! ### A dispatch (R144, R146) -/

/-- The evaluation that a dispatch makes at port `p`. -/
def evaluateCandidate (s : State) (p : PortId) : State := if considered s p then evaluateCompletions s p else s

theorem evaluateCandidates_eq (s : State) : evaluateCandidates s = (List.finRange 8).foldl evaluateCandidate s := rfl

theorem atPort_evaluateCandidate (s : State) (p : PortId) : AtPort s (evaluateCandidate s p) p := by
  unfold evaluateCandidate evaluateCompletions
  split
  · split
    · exact atPort_raiseCause s p _
    · exact AtPort.refl s p
  · exact AtPort.refl s p

theorem keepsStations_evaluateCandidate (s : State) (p : PortId) : KeepsStations s (evaluateCandidate s p) := by
  unfold evaluateCandidate
  split
  · exact keepsStations_evaluateCompletions s p
  · exact KeepsStations.refl s

theorem keepsStations_evaluations (s : State) (l : List PortId) : KeepsStations s (l.foldl evaluateCandidate s) :=
  fun a ha => foldl_untouched (g := fun s : State => s.byteAt a)
    (fun s p _ => keepsStations_evaluateCandidate s p a ha) s

theorem evaluations_port_ne {p : PortId} {l : List PortId} (other : p ∉ l) (s : State) :
    (l.foldl evaluateCandidate s).ports[p] = s.ports[p] :=
  foldl_untouched (g := fun s : State => s.ports[p])
    (fun s q hq => (atPort_evaluateCandidate s q).2 p fun e => other (e ▸ hq)) s

theorem keepsStations_evaluateCandidates (s : State) : KeepsStations s (evaluateCandidates s) :=
  keepsStations_evaluations s _

theorem evaluateCandidates_dispatcher (s : State) : (evaluateCandidates s).dispatcher = s.dispatcher := by
  rw [evaluateCandidates_eq]
  exact foldl_untouched (g := State.dispatcher) (fun s p _ => by rw [(atPort_evaluateCandidate s p).1]) s

theorem considered_of_port {s t : State} {p : PortId} (port : t.ports[p] = s.ports[p]) :
    considered t p = considered s p := by
  unfold considered
  rw [port]

/-- A port considered with more records than its ring holds has RING_INDEX raised, whatever other ports are considered. -/
theorem evaluateCandidates_far {s : State} {p : PortId} (here : considered s p = true) (bound : reports s p = true)
    (far : 256 < unconsumed s p) : ∃ fired, (evaluateCandidates s).ports[p] =
      { s.ports[p] with causes := s.ports[p].causes ||| 64, fired := fired } := by
  obtain ⟨before, after, split, earlier, later⟩ := finRange_split p
  have port := evaluations_port_ne earlier s
  have far' : 256 < unconsumed (before.foldl evaluateCandidate s) p := by
    rwa [(keepsStations_evaluations s before).unconsumed (congrArg _ port)]
  have bound' : reports (before.foldl evaluateCandidate s) p = true := by
    unfold reports
    rw [port]
    exact bound
  refine ⟨s.ports[p].fired || (before.foldl evaluateCandidate s).ring.up, ?_⟩
  rw [evaluateCandidates_eq, split, List.foldl_append, List.foldl_cons, evaluations_port_ne later, evaluateCandidate,
    considered_of_port port, if_pos here, evaluateCompletions_of_far far',
    (raiseCause_becomes bound' .ringIndex).port, port]
  rfl

theorem isCandidate_of_far {s : State} {p : PortId} (far : 256 < unconsumed s p) : isCandidate s p = false := by
  have none_free : freeCompletions s p = 0 := if_pos far
  rw [isCandidate, none_free]
  exact Bool.and_false _

theorem nextDispatch_candidate {s : State} {q : PortId} {count : Nat} (next : nextDispatch s = some (q, count)) :
    isCandidate s q = true := by
  unfold nextDispatch at next
  dsimp only at next
  split at next
  next goesOn =>
    cases next
    exact (Bool.and_eq_true_iff.1 goesOn).1
  next =>
    obtain ⟨x, found, same⟩ := Option.map_eq_some_iff.1 next
    cases same
    exact List.find?_some found

theorem findCommand_some {s : State} {n : Nat} {p : PortId} {c : InFlight} (found : findCommand s n = some (p, c)) :
    c ∈ s.ports[p].inFlight ∧ c.serial = n := by
  obtain ⟨q, -, here⟩ := List.exists_of_findSome?_eq_some found
  obtain ⟨x, first, same⟩ := Option.map_eq_some_iff.1 here
  cases same
  exact ⟨List.mem_of_find?_eq_some first, by simpa using List.find?_some first⟩

/-- A dispatch from another port leaves a port that holds no command of the number given out. -/
theorem dispatchFrom_port_ne {s : State} {p q : PortId} (other : p ≠ q)
    (fresh : ∀ c ∈ s.ports[p].inFlight, c.serial ≠ s.dispatcher.nextSerial) (count : Nat) :
    (dispatchFrom s q count).ports[p] = s.ports[p] := by
  unfold dispatchFrom
  split
  next => rfl
  next d rest _ =>
    extract_lets n x placed numbered shown
    have port : shown.ports[p] = s.ports[p] :=
      ((applyPendingDepth_spec (numbered.writePortStatus q) q).1.2 p other).trans
        ((State.setPort_get s q p _).trans (if_neg other))
    split
    next =>
      cases found : findCommand shown n with
      | none => rw [complete, found, port]
      | some y =>
        obtain ⟨-, -, others, -⟩ := complete_spec shown n .unknownCommand 0 0 0 y.1 y.2 found
        obtain ⟨member, serial⟩ := findCommand_some found
        have elsewhere : p ≠ y.1 := fun same => fresh y.2 (by rwa [← port, same]) serial
        rw [others p elsewhere, port]
    next => exact port

/-- A dispatch at which a port with too many records is considered raises RING_INDEX on it and does not dispatch from it. -/
theorem exec_dispatch_far {s : State} {p : PortId} (bound : reports s p = true) (eligible : s.ports[p].eligible ≠ none)
    (place : s.ports[p].inFlight.length < s.ports[p].depth) (far : 256 < unconsumed s p)
    (fresh : ∀ c ∈ s.ports[p].inFlight, c.serial ≠ s.dispatcher.nextSerial) :
    ∃ t fired, exec .dispatch s = .next t ∧
      t.ports[p] = { s.ports[p] with causes := s.ports[p].causes ||| 64, fired := fired } := by
  have here : considered s p = true := by
    change (reports s p && s.ports[p].eligible.isSome && decide (s.ports[p].inFlight.length < s.ports[p].depth)) = true
    rw [bound, decide_eq_true place, Option.isSome_iff_ne_none.2 eligible]
    rfl
  obtain ⟨fired, port⟩ := evaluateCandidates_far here bound far
  have far' : 256 < unconsumed (evaluateCandidates s) p := by
    rwa [(keepsStations_evaluateCandidates s).unconsumed (by rw [port])]
  refine ⟨_, fired, rfl, ?_⟩
  dsimp only
  split
  next q count next =>
    have other : p ≠ q := fun same =>
      absurd (nextDispatch_candidate next) (by rw [← same, isCandidate_of_far far']; decide)
    rw [dispatchFrom_port_ne other, port]
    rw [port, evaluateCandidates_dispatcher]
    exact fresh
  next => exact port

/-! ### CLEAR_CAUSES (R165) -/

/-- The state in which CLEAR_CAUSES has cleared the causes named, and the loss flags where NOTICE_LOST is among them. -/
def causesCleared (s : State) (p : PortId) (named : Byte) : State :=
  let t := s.setPort p { s.ports[p] with causes := s.ports[p].causes &&& ~~~named }
  if hasCause named .noticeLost then { t with ring := { t.ring with lossFlags := 0 } }.writeRingWord else t

/-- CLEAR_CAUSES up to its completion where the completion ring has no sane index: RING_INDEX is raised, and the page
written. -/
def causesClearedFar (s : State) (p : PortId) (named : Byte) : State :=
  (raiseCause ((causesCleared s p named).writePortStatus p) p .ringIndex).writePartPage

section
variable (s : State) (p : PortId) (named : Byte)

theorem causesCleared_ports : (causesCleared s p named).ports =
    s.ports.set p { s.ports[p] with causes := s.ports[p].causes &&& ~~~named } := by
  unfold causesCleared
  dsimp only
  split <;> rfl

theorem causesCleared_port : (causesCleared s p named).ports[p] =
    { s.ports[p] with causes := s.ports[p].causes &&& ~~~named } := by
  rw [causesCleared_ports]
  exact State.setPort_get_self s p _

theorem causesCleared_up : (causesCleared s p named).ring.up = s.ring.up := by
  unfold causesCleared
  dsimp only
  split <;> rfl

theorem causesCleared_byteAt {a : Nat} (outside : ¬ InBytes a Config.partStatusAddr 4096) :
    (causesCleared s p named).byteAt a = s.byteAt a := by
  unfold causesCleared
  dsimp only
  split
  · exact writePartStatus_byteAt _ 0 8 a fun inside => outside (inside.widen (by decide))
  · rfl

theorem partStatusBytes_length : (partStatusBytes s).length = 128 := by
  have bindings : (s.ports.toList.flatMap bindingBytes).length = 64 := by
    simp [List.length_flatMap]
  unfold partStatusBytes
  simp [bindings]

theorem partPage_length : (padTo 4096 (partStatusBytes s)).length = 4096 :=
  padTo_length _ _ (by rw [partStatusBytes_length]; decide)

theorem writePartPage_byteAt {a : Nat} (outside : ¬ InBytes a Config.partStatusAddr 4096) :
    s.writePartPage.byteAt a = s.byteAt a := partWrite_byteAt _ _ _ _ (by rwa [partPage_length])

end

section
variable {s : State} {p : PortId} {named : Byte}

theorem station_not_partPage {a : Nat} (ha : StationByte a) : ¬ InBytes a Config.partStatusAddr 4096 :=
  fun inside => absurd ha.1 inside.1.not_gt

theorem partPage_apart_portStatus {a : Nat} (ha : InBytes a (Config.portStatusAddr p) 24) :
    ¬ InBytes a Config.partStatusAddr 4096 := by
  have := p.isLt
  simp only [InBytes, Config.portStatusAddr, Config.portBase, Config.partStatusAddr] at *
  omega

/-- The whole page rewritten leaves a port's record, which shows what it showed. -/
theorem writePartPage_keeps_portStatus {t : State}
    (shown : Stands t (Config.portStatusAddr p) (portStatusBytes t p)) :
    Stands t.writePartPage (Config.portStatusAddr p) (portStatusBytes t.writePartPage p) := by
  have stations : KeepsStations t t.writePartPage := fun a ha => writePartPage_byteAt t (station_not_partPage ha)
  rw [stations.portStatusBytes rfl]
  refine stands_of_byteAt t _ _ _ (fun a ha => writePartPage_byteAt t ?_) shown
  rw [portStatusBytes_length] at ha
  exact partPage_apart_portStatus ha

theorem causesClearedFar_byteAt {a : Nat} (record : ¬ InBytes a (Config.portStatusAddr p) 24)
    (page : ¬ InBytes a Config.partStatusAddr 4096) : (causesClearedFar s p named).byteAt a = s.byteAt a := by
  unfold causesClearedFar
  rw [writePartPage_byteAt _ page, raiseCause_byteAt _ p _ record, writePortStatus_byteAt _ p a record,
    causesCleared_byteAt s p named page]

theorem causesClearedFar_port (bound : reports s p = true) : (causesClearedFar s p named).ports[p] = { s.ports[p] with
    causes := s.ports[p].causes &&& ~~~named ||| 64, fired := s.ports[p].fired || s.ring.up } := by
  have port := causesCleared_port s p named
  have up := causesCleared_up s p named
  have raised := raiseCause_becomes (s := (causesCleared s p named).writePortStatus p) (p := p) (by
    rw [reports, writePortStatus_ports, port]
    exact bound) .ringIndex
  refine raised.port.trans ?_
  rw [writePortStatus_ports, port]
  change { s.ports[p] with
    causes := s.ports[p].causes &&& ~~~named ||| 64
    fired := s.ports[p].fired || (causesCleared s p named).ring.up } = _
  rw [up]

theorem causesClearedFar_inFlight (q : PortId) : (causesClearedFar s p named).ports[q].inFlight = s.ports[q].inFlight := by
  refine (raiseCause_inFlight _ p q _).trans ?_
  rw [writePortStatus_ports, causesCleared_ports]
  change (s.setPort p _).ports[q].inFlight = _
  rw [State.setPort_get]
  split
  next same => rw [same]
  next => rfl

theorem causesClearedFar_shown : Stands (causesClearedFar s p named) (Config.portStatusAddr p)
    (portStatusBytes (causesClearedFar s p named) p) :=
  writePartPage_keeps_portStatus (raiseCause_shown _ (writePortStatus_shown _ p))

end

theorem exec_clearCauses {s : State} {n : Nat} {p : PortId} {d : Descriptor} (taken : Taken s n .clearCauses p d) :
    let t := (causesCleared s p (byte (d.field 8 1) &&& causeBits)).writePortStatus p
    let count := if 256 < unconsumed t p then 0 else unconsumed t p
    let u := (if 256 < unconsumed t p then raiseCause t p .ringIndex else rewriteCompletions t p count).writePartPage
    exec (.clearCauses n) s = .next (complete u n .ok u.ports[p].causes.toNat (bit u.ports[p].fired) count) :=
  congrArg Host.Outcome.next (withCommand_taken taken _)

theorem exec_clearCauses_far {s : State} {n : Nat} {p : PortId} {d : Descriptor} (taken : Taken s n .clearCauses p d)
    (far : 256 < unconsumed s p) :
    let u := causesClearedFar s p (byte (d.field 8 1) &&& causeBits)
    exec (.clearCauses n) s = .next (complete u n .ok u.ports[p].causes.toNat (bit u.ports[p].fired) 0) := by
  intro u
  have stations : KeepsStations s ((causesCleared s p (byte (d.field 8 1) &&& causeBits)).writePortStatus p) := fun a ha =>
    (keepsStations_writePortStatus _ p a ha).trans (causesCleared_byteAt s p _ (station_not_partPage ha))
  have far' : 256 < unconsumed ((causesCleared s p (byte (d.field 8 1) &&& causeBits)).writePortStatus p) p := by
    rwa [stations.unconsumed (by rw [writePortStatus_ports, causesCleared_port])]
  rw [exec_clearCauses taken, if_pos far', if_pos far']
  rfl

/-! ### A delta ring (R121, R124, R127) -/

section
variable {s : State} {v : Slot} (far : 4096 < deltaDistance s v)
include far

/-- A released frame with records is stalled where its delta ring has no sane index. -/
theorem publishFrame_of_far {f : Frame}
    (records : 0 < (frameEntries s s.views[v].ctx f.count).countP (passesFilter s s.views[v].ctx)) :
    publishFrame s v f = ((raiseCause s s.views[v].ctx.owner .ringIndex).setView v { s.views[v] with
      state := .stalled, frame := some { f with phase := .stalled }, timer := none }).writeViewStatus v := by
  have frame := (atPort_raiseCause s s.views[v].ctx.owner .ringIndex).1
  have same : frameRecords (raiseCause s s.views[v].ctx.owner .ringIndex)
      (raiseCause s s.views[v].ctx.owner .ringIndex).views[v].ctx f =
        (frameEntries s s.views[v].ctx f.count).countP (passesFilter s s.views[v].ctx) := by
    rw [frame]
    rfl
  have views : (raiseCause s s.views[v].ctx.owner .ringIndex).views = s.views := by
    rw [frame]
  unfold publishFrame
  dsimp only
  rw [deltaFree_of_far far, evaluateRoom_of_far far, same, if_neg records.not_ge, views]

/-- A stop raises RING_INDEX where its view's delta ring has no sane index. -/
theorem stopView_ringIndex (bound : reports s s.views[v].ctx.owner = true) (cause : StopCause) (device : Nat) :
    hasCause (stopView s v cause device).ports[s.views[v].ctx.owner].causes .ringIndex = true := by
  have owner : (stopHeld s v cause device).views[v].ctx.owner = s.views[v].ctx.owner := by
    rw [stopHeld_view]
    rfl
  have marked : hasCause (stopMarked s v cause device).ports[s.views[v].ctx.owner].causes .ringIndex = true := by
    rw [stopMarked_ports, evaluateRoom_of_far (by rwa [stopHeld_deltaDistance]), owner]
    exact raiseCause_hasCause (s := stopHeld s v cause device) _ bound
  have raised : hasCause (stopRaised s v cause device).ports[s.views[v].ctx.owner].causes .ringIndex = true := by
    unfold stopRaised
    split
    · exact raiseCause_keepsCauses marked _ _
    · exact marked
  rw [stopView_eq]
  cases step : (stopRaised s v cause device).views[v].step with
  | none =>
    rw [endStep_of_none step]
    exact raised
  | some st =>
    rw [endStep_of_some step, complete_causes]
    exact raised

/-- The mark of a stop is lost where its view's delta ring has no sane index. -/
theorem stopView_loses_mark (cause : StopCause) (device : Nat) :
    (stopView s v cause device).views[v].producer = s.views[v].producer ∧
      (stopView s v cause device).views[v].lostMarks = min (s.views[v].lostMarks + 1) 65535 := by
  rw [stopView_view, stopRaised_view_of_full (deltaFree_of_far far)]
  exact ⟨rfl, rfl⟩

end

/-! ### Ring writes of the consumer words (R121, R144) -/

/-- What the word of a delta ring without a sane index is told as, be its view STALLED with records to write or not. -/
theorem deltaConsumerWritten_far {s : State} {p : PortId} {v : Slot} (far : 4096 < deltaDistance s v)
    (live : s.views[v].state ≠ .free) (owner : s.views[v].ctx.owner = p)
    (records : s.views[v].state = .stalled → ∃ f, s.views[v].frame = some f ∧
      0 < (frameEntries s s.views[v].ctx f.count).countP (passesFilter s s.views[v].ctx)) :
    deltaConsumerWritten s p v = raiseCause s p .ringIndex := by
  by_cases stalled : s.views[v].state = .stalled
  · obtain ⟨f, held, visible⟩ := records stalled
    rw [deltaConsumerWritten_retries owner stalled, retryStalled_far far held, if_neg visible.ne', owner]
  · rw [deltaConsumerWritten_evaluates live owner stalled, evaluateRoom_of_far far, owner]

/-- A write of one word by the node of port `p`, which raises RING_INDEX on the port, while the ring is UP. -/
theorem exec_write_raises {s : State} {n : Node} {p : PortId} {a hops : Nat} {data : List Byte} (up : s.ring.up = true)
    (foreign : n ≠ s.ring.node) (travels : hops < s.ring.size - 1) (word : data.length = 8)
    (bound : s.ports[p].bound = some n) (attached : s.ports[p].detaching = false) (aligned : a % 8 = 0)
    (base : Config.portBase p ≤ a) (half : a + 8 ≤ Config.portBase p + 0x80000)
    (raises : let u := (s.writeForwarded n a data hops).writeApplied a data
      PortBecomes u (wordWritten u a) p
        { s.ports[p] with causes := s.ports[p].causes ||| 64, fired := s.ports[p].fired || s.ring.up }) :
    ∃ t, exec (.packetArrival (.write n a data hops)) s = .next t ∧ Stands t a data ∧ t.views = s.views ∧
      t.ports = s.ports.set p { s.ports[p] with causes := s.ports[p].causes ||| 64, fired := true } := by
  rw [up, Bool.or_true] at raises
  have station : ∀ x, InBytes x a data.length → StationByte x := fun x hx => by
    have := p.isLt
    simp only [word, InBytes, StationByte, Config.portBase] at *
    omega
  refine ⟨_, (exec_write_arrives up foreign travels a data).trans (congrArg Host.Outcome.next
    (ringWrite_word (s := s.writeForwarded n a data hops) bound attached word aligned base half)),
    raises.keepsStations.stands station (writeApplied_stands _ a data), ?_, ?_⟩
  · rw [raises.frame]
    rfl
  · rw [raises.frame]
    rfl

/-- Settles O56: at the dispatch and the two ring writes, at CLEAR_CAUSES, and at a frame's release and a mark. -/
theorem ringIndexRaised : Obligations.RingIndexRaised := by
  refine ⟨fun s p bound eligible place far fresh => ?_,
    fun s n p hops data up foreign travels word bound attached => ?_, fun s n p d taken far => ?_,
    fun s v far bound => ?_⟩
  · obtain ⟨t, fired, run, port⟩ := exec_dispatch_far bound eligible place far fresh
    refine ⟨t, run, ?_, by rw [port], by rw [port]⟩
    rw [port]
    exact hasCause_or_mask _ .ringIndex
  · have bound' : reports s p = true := by
      rw [reports, bound, attached]
      rfl
    refine ⟨fun far => ?_, fun v live owner => ?_⟩
    · have aligned : Config.consumerAddr p % 8 = 0 := by
        unfold Config.consumerAddr Config.portBase
        omega
      have half : Config.consumerAddr p + 8 ≤ Config.portBase p + 0x80000 := by
        unfold Config.consumerAddr
        omega
      obtain ⟨t, run, stands, -, ports⟩ := exec_write_raises up foreign travels word bound attached aligned
        (Nat.le_add_right _ _) half (consumerWritten_far (by exact far) (by exact bound'))
      exact ⟨t, run, stands, ports⟩
    · intro a far records
      have := v.isLt
      refine exec_write_raises up foreign travels word bound attached ?_ ?_ ?_ ?_
      case refine_4 =>
        intro u
        rw [wordWritten_deltaConsumer, deltaConsumerWritten_far (by exact far) (by exact live) (by exact owner)
          (by exact records)]
        exact raiseCause_becomes (by exact bound') .ringIndex
      all_goals
        unfold a Config.deltaConsumerAddr Config.portBase
        omega
  · intro left
    refine ⟨causesClearedFar s p (byte (d.field 8 1) &&& causeBits), causesClearedFar_shown, partWrite_stands _ _ _,
      fun a record page => causesClearedFar_byteAt record page, causesClearedFar_port, ?_⟩
    refine completes_of_eq (c := ⟨n, d, false⟩) (exec_clearCauses_far taken far) ?_
    exact (findCommand_of_inFlight causesClearedFar_inFlight n).trans taken.1
  · intro raised
    refine ⟨fun f records => ?_, fun cause device => ⟨stopView_ringIndex far bound cause device,
      stopView_loses_mark far cause device⟩⟩
    rw [publishFrame_of_far far records, setView_writeViewStatus, wrote_views]
    refine ⟨raiseCause_hasCause .ringIndex bound, ?_⟩
    rw [(atPort_raiseCause s _ .ringIndex).1]
    rfl

end Sys2Proof.Machine
end

section
/-! PROOFS. A ring write applied whole or discarded whole, and each watched word told to its block (R122, R129, R143, R144,
R154, R157). -/

namespace Sys2Proof.Machine

/-! ### What the words are told as keeps the stations' bytes -/

theorem keepsStations_refreshPort (s : State) (p : PortId) : KeepsStations s (refreshPort s p) := by
  have same := portBecomes_refreshPort s p s.ports[p]
  rw [State.setPort_same] at same
  exact same.keepsStations

theorem keepsStations_freshReading (s : State) (p : PortId) : KeepsStations s (freshReading s p) := by
  unfold freshReading
  split
  · exact (portBecomes_writePortStatus s p _).keepsStations.trans (keepsStations_raiseCause _ p _)
  · exact (portBecomes_refreshPort s p _).keepsStations

theorem keepsStations_deltaConsumerWritten (s : State) (p : PortId) (v : Slot) :
    KeepsStations s (deltaConsumerWritten s p v) := by
  unfold deltaConsumerWritten
  split
  · split
    · exact keepsStations_retryStalled s v
    · exact keepsStations_evaluateRoom s v
  · exact KeepsStations.refl s

theorem keepsStations_wordWritten (s : State) (a : Nat) : KeepsStations s (wordWritten s a) := by
  rw [wordWritten_at rfl rfl]
  split
  · split
    · exact keepsStations_freshReading s _
    · exact KeepsStations.refl s
  · split
    · exact (keepsStations_evaluateCompletions s _).trans (keepsStations_refreshPort _ _)
    · split
      · exact keepsStations_deltaConsumerWritten s _ _
      · exact KeepsStations.refl s

theorem keepsStations_wordsWritten (s : State) (l : List Nat) : KeepsStations s (l.foldl wordWritten s) :=
  fun a ha => foldl_untouched (g := fun s : State => s.byteAt a) (fun s x _ => keepsStations_wordWritten s x a ha) s

/-- Words beside the watched ones change nothing. -/
theorem wordsWritten_unwatched {a len : Nat} (low : a % 1048576 < 0x80000) (short : len ≤ 256)
    (beside : a % 1048576 + len ≤ 0x2000 ∨ 0x2050 ≤ a % 1048576) (s : State) :
    ((List.range (len / 8)).map fun i => a + 8 * i).foldl wordWritten s = s :=
  foldl_untouched (g := id) (fun s x hx => by
    obtain ⟨i, hi, rfl⟩ := List.mem_map.1 hx
    have := List.mem_range.1 hi
    exact wordWritten_unwatched (by omega)) s

/-! ### A write applied, and a write discarded (R157) -/

/-- A write that passes the checks stands, and its words are told in their order. -/
theorem ringWrite_applied {s : State} {n : Node} {a : Nat} {data : List Byte}
    (allowed : writeAllowed s n a data.length = true) : Stands (ringWrite s n a data) a data ∧
      (a % 1048576 + data.length ≤ 0x2000 ∨ 0x2050 ≤ a % 1048576 → ringWrite s n a data = s.writeApplied a data) := by
  obtain ⟨-, -, -, short, -, first, -⟩ := writeAllowed_iff.1 allowed
  have low := (pageOwner_station first).2
  rw [ringWrite_allowed allowed]
  exact ⟨(keepsStations_wordsWritten _ _).stands (fun x hx => writeAllowed_station allowed hx)
      (writeApplied_stands s a data),
    fun beside => wordsWritten_unwatched low short beside _⟩

theorem ringWrite_discarded {s : State} {n : Node} {a : Nat} {data : List Byte}
    (refused : ¬ writeAllowed s n a data.length = true) : ringWrite s n a data = raiseOn s (portOf s n) .badWrite :=
  if_neg refused

/-- The port a node is bound to reports. -/
theorem reports_of_portOf {s : State} {n : Node} {p : PortId} (found : portOf s n = some p) : reports s p = true := by
  unfold portOf at found
  have here := List.find?_some found
  obtain ⟨bound, attached⟩ := of_decide_eq_true here
  rw [reports, bound, attached]
  rfl

/-! ### The delta consumer words (R121, R122, R129) -/

/-- The distance of the owner's delta ring, from the word of its control page. -/
theorem deltaDistance_of_owner {s : State} {p : PortId} {v : Slot} (owner : s.views[v].ctx.owner = p) :
    deltaDistance s v = (s.views[v].producer - s.indexAt (Config.deltaConsumerAddr p v)).toNat := by
  rw [← owner]
  rfl

/-- Settles O60: the write applied or discarded, the words of no block, and each watched word. -/
theorem ringWriteAppliedWhole : Obligations.RingWriteAppliedWhole := by
  refine ⟨fun s n a hops data up foreign travels => ?_, fun s b beside => wordWritten_unwatched beside, fun s p => ?_⟩
  · intro owner forwarded applied fits
    have run := exec_write_arrives up foreign travels a data
    have checks : fits ↔ writeAllowed (s.writeForwarded n a data hops) n a data.length = true := writeAllowed_iff.symm
    refine ⟨fun passes => ?_, fun fails => ⟨fun p found => ?_, fun unbound => ?_⟩⟩
    · have allowed := checks.1 passes
      obtain ⟨stands, alone⟩ := ringWrite_applied allowed
      exact ⟨writeApplied_stands _ a data, fun x outside => writeApplied_byteAt (s.writeForwarded n a data hops) outside,
        _, run, stands, ringWrite_allowed allowed, alone⟩
    · have raised := raiseCause_becomes (s := forwarded) (reports_of_portOf found) .badWrite
      have port := atPort_raiseCause forwarded p .badWrite
      have discarded := ringWrite_discarded (mt checks.2 fails)
      rw [discarded, show portOf (s.writeForwarded n a data hops) n = some p from found] at run
      refine ⟨_, run, ?_, port.2, ?_, raised.bytes⟩
      · exact raiseCause_hasCause (s := forwarded) .badWrite (reports_of_portOf found)
      · exact port.1
    · rw [ringWrite_discarded (mt checks.2 fails),
        show portOf (s.writeForwarded n a data hops) n = none from unbound] at run
      exact run
  · intro x word consumer only
    have told : ∀ {t y}, PortBecomes s t p y → only t y := fun h => ⟨h.frame, h.shown, h.bytes⟩
    refine ⟨fun running => ?_, fun halted near => ?_, fun halted far bound => ?_,
      fun near => told (consumerWritten_near near), fun far bound => told (consumerWritten_far far bound), fun v => ?_⟩
    · rw [wordWritten_producer, if_neg (ne_true_of_eq_false running)]
    · rw [wordWritten_producer, if_pos halted]
      exact told (freshReading_near near)
    · have halts := freshReading_far far bound
      rw [wordWritten_producer, if_pos halted]
      refine told ?_
      rwa [← halted] at halts
    · intro w after distance
      have said : after = deltaConsumerWritten s p v := wordWritten_deltaConsumer s p v
      refine ⟨fun other => ?_, fun live owner near => ⟨fun flowing => ?_, fun f stalled held => ?_⟩,
        fun live owner far bound => ⟨fun flowing => ?_, fun f stalled held => ?_⟩⟩
      · rw [said, deltaConsumerWritten_unowned fun ⟨live, owner⟩ => other.elim live fun foreign => foreign owner]
      · rw [said, deltaConsumerWritten_evaluates live owner flowing,
          evaluateRoom_of_near (by rwa [deltaDistance_of_owner owner])]
      · intro records
        have near' : deltaDistance s v ≤ 4096 := by rwa [deltaDistance_of_owner owner]
        rw [said, deltaConsumerWritten_retries owner stalled, retryStalled_eq held, evaluateRoom_of_near near',
          deltaFree_of_near near', deltaDistance_of_owner owner]
        exact ⟨fun fits => if_pos fits, fun full => if_neg full.not_ge⟩
      · rw [said, deltaConsumerWritten_evaluates live owner flowing,
          evaluateRoom_of_far (by rwa [deltaDistance_of_owner owner]), owner]
        exact told (raiseCause_becomes bound .ringIndex)
      · refine ⟨_, told (raiseCause_becomes bound .ringIndex), ?_⟩
        rw [said, deltaConsumerWritten_retries owner stalled,
          retryStalled_far (by rwa [deltaDistance_of_owner owner]) held, owner]

end Sys2Proof.Machine
end
